-- ==== Sys2Proof/Word.lean ====
section
/-! DEFINITION. The byte, the block's unit of data (20_memory.md R93, R95). -/

namespace Sys2Proof

/-- One byte: the unit of every buffer-RAM and descriptor-ROM access (R93). -/
abbrev Byte := BitVec 8

end Sys2Proof
end

