-- ==== Sys2Proof/Syntax.lean ====
section
/-! DEFINITION. What the block executes: one constructor of `Instr` per row of the opcode table, the words of its
five ports, and the lines of a run trace (30_encoding.md, 45_sie_environment.md). -/

namespace Sys2Proof

/-- The index of a buffer descriptor, `bd(ep, dir) = 2*ep + dir` (R14, R33). -/
abbrev BdIndex := Fin 6

/-- The 36 rows of the opcode table: 13 of format SETUP, 3 CMD, 3 BDOP, 10 PUMPIN, 7 USTAT. -/
inductive Instr where
  /-- R234. -/
  | getStatusDev (wValue wIndex wLength : BitVec 16)
  /-- R235. -/
  | getStatusIf (wValue wIndex wLength : BitVec 16)
  /-- R236. -/
  | getStatusEp (wValue wIndex wLength : BitVec 16)
  /-- R240. -/
  | clearFeatureDev (wValue wIndex wLength : BitVec 16)
  /-- R251. -/
  | clearFeatureEp (wValue wIndex wLength : BitVec 16)
  /-- R241. -/
  | setFeatureDev (wValue wIndex wLength : BitVec 16)
  /-- R250. -/
  | setFeatureEp (wValue wIndex wLength : BitVec 16)
  /-- R255. -/
  | setAddress (wValue wIndex wLength : BitVec 16)
  /-- R258. -/
  | getDescriptor (wValue wIndex wLength : BitVec 16)
  /-- R265. -/
  | getConfiguration (wValue wIndex wLength : BitVec 16)
  /-- R262, R263. -/
  | setConfiguration (wValue wIndex wLength : BitVec 16)
  /-- R266. -/
  | getInterface (wValue wIndex wLength : BitVec 16)
  /-- R267. -/
  | setInterface (wValue wIndex wLength : BitVec 16)
  /-- R322. The length field of the word is the length of `data` (R114). -/
  | bulkWrite (ep : BitVec 4) (data : List Byte)
  /-- R324. -/
  | bulkRead (ep : BitVec 4) (len : Byte)
  /-- R326. -/
  | status
  /-- R161. -/
  | arm (bd : BdIndex) (len : Byte) (t : Bool)
  /-- R164. -/
  | drain (bd : BdIndex) (max : Byte)
  /-- R167. -/
  | reclaim (bd : BdIndex)
  /-- R284. -/
  | detach
  /-- R282. -/
  | attach
  /-- R283. -/
  | powered
  /-- R285. -/
  | actv
  /-- R286. -/
  | urst
  /-- R287. -/
  | idle
  /-- R288. -/
  | sof
  /-- R289. -/
  | stall
  /-- R290. -/
  | uerr
  /-- R291. -/
  | trn
  /-- R191. -/
  | trnEp0Setup
  /-- R200, R201, R206. -/
  | trnEp0Out
  /-- R198, R199, R202, R204. -/
  | trnEp0In
  /-- R293. -/
  | trnEp1Out
  /-- R293. -/
  | trnEp2Out
  /-- R293. -/
  | trnEp1In
  /-- R293. -/
  | trnEp2In
  deriving DecidableEq, Repr

/-- A word together with the port it stands on. A decoder knows a word's format from its port and never reads the
format from the bits (30_encoding.md section 1). -/
inductive PortWord where
  /-- The 8-byte Setup packet as one little-endian number (R130). -/
  | setup (packet : BitVec 64)
  /-- A command word and its data operand (R114). -/
  | cmd (c : BitVec 32) (data : List Byte)
  /-- A word of the internal BD-operation bus (R116). -/
  | bdop (w : BitVec 16)
  /-- The view one pump step decodes (R113). -/
  | pumpin (v : BitVec 16)
  /-- The transaction-status latch (R112). -/
  | ustat (u : Byte)
  deriving DecidableEq, Repr

/-- Why a word is no instruction of its port (R136). -/
inductive DecodeError where
  /-- SETUP: the type field is not "standard" (R231). -/
  | notStandard
  /-- SETUP: no row has this pair of request type and request code (R232). -/
  | noRequestRow
  /-- CMD: a reserved opcode or a nonzero must-be-0 field (R321). -/
  | noCommandRow
  /-- CMD: the data operand has not the length the word requires (R114, R321). -/
  | badDataLength
  /-- BDOP: `op = 00`, `bd >= 6` or a nonzero must-be-0 field (R169). -/
  | reservedBdop
  /-- PUMPIN: no branch's test holds (R280). -/
  | noBranch
  /-- USTAT: no row matches (R294). -/
  | reservedUstat
  deriving DecidableEq, Repr

/-- The flags the SIE may raise by a move of their own (R349 to R352). -/
inductive SieFlag where
  | urst
  | idle
  | actv
  | sof
  | uerr
  deriving DecidableEq, Repr

/-- One line of a run trace: one atomic step of one agent (R99, R138, R387). -/
inductive Line where
  /-- `PUMP`: one pump step of the block (R280). -/
  | pump
  /-- `CMD ...`: a command word and its data operand on the command port (R320). -/
  | cmd (c : BitVec 32) (data : List Byte)
  /-- `SIE SETUP a=<a> <bytes>` (R340). -/
  | setup (a : BitVec 7) (bytes : List Byte)
  /-- `SIE OUT a=<a> ep=<ep> DATA<d> <bytes>` (R342). -/
  | out (a : BitVec 7) (ep : BitVec 4) (d : Bool) (bytes : List Byte)
  /-- `SIE IN a=<a> ep=<ep>`, ACKed by the host (R345). -/
  | inToken (a : BitVec 7) (ep : BitVec 4)
  /-- An IN whose ACK is lost: "the transaction never completes" (R345, R354). -/
  | inLost (a : BitVec 7) (ep : BitVec 4)
  /-- `SIE FLAG <f>` (R349 to R352). -/
  | flag (f : SieFlag)
  /-- `SIE BUS VBUS=<v> SE0=<s>` (R353). -/
  | bus (vbus se0 : Bool)
  deriving DecidableEq, Repr

end Sys2Proof
end

