-- ==== Sys2Proof/Machine/State.lean ====
section
/-! DEFINITION. The state of the block, every register of 10_state.md and the buffer RAM of 20_memory.md, with the
model's own fields that say which agent moves next and what was answered; why a step can stop; and power-on reset. -/

namespace Sys2Proof.Machine

/-- The owner of a buffer descriptor: `SW = 0` is the block, `HW = 1` the SIE (R34). -/
inductive Owner where
  | sw
  | hw
  deriving DecidableEq, Repr

/-- A buffer descriptor: exactly five fields (R33). -/
structure Bd where
  /-- R34. -/
  own : Owner
  /-- R35: false is DATA0, true is DATA1. -/
  dts : Bool
  /-- R36. -/
  stall : Bool
  /-- R37. -/
  count : Byte
  /-- R38. -/
  addr : Byte
  deriving DecidableEq, Repr

/-- The six buffer descriptors, in the order of their index (R33). -/
structure BdFile where
  ep0Out : Bd
  ep0In : Bd
  ep1Out : Bd
  ep1In : Bd
  ep2Out : Bd
  ep2In : Bd
  deriving DecidableEq, Repr

/-- Buffer RAM: the written bytes, addresses strictly rising and below 256. A byte not listed was never written and
reads as a free draw (R80, R84). -/
abbrev Memory := List Host.Cell

/-- The answer of the command port (R115). -/
structure Resp where
  r : BitVec 32
  q : List Byte
  deriving DecidableEq, Repr

/-- The output event of an SIE move: what the host sees (45_sie_environment.md). -/
inductive Event where
  | ack
  | nak
  | stall
  | data (dts : Bool) (bytes : List Byte)
  /-- `-`: no answer. -/
  | noAnswer
  deriving DecidableEq, Repr

/-- The answer of a BD operation: ARM answers `(ok, n)`, DRAIN `(ok, n, bytes)` (R116). -/
structure BdAnswer where
  ok : Bool
  n : Byte
  bytes : List Byte
  deriving DecidableEq, Repr

/-- The part of the state the dispatcher sees and writes: `rec` of 41_control_engine.md (R209, R230). -/
structure DevRec where
  devstate : BitVec 3
  rwu : Bool
  selfpwr : Bool
  config : Byte
  paddr : BitVec 7
  apend : Bool
  ephalt : BitVec 6
  deriving DecidableEq, Repr

/-- The state of the block (R30). -/
structure State where
  /-- `BD[0..5]` (R33). -/
  bds : BdFile
  /-- `UIR` (R40). -/
  uir : BitVec 8
  /-- `USTAT` (R41). -/
  ustat : BitVec 8
  /-- `EPEN` (R42). -/
  epen : BitVec 3
  /-- `ADDR` (R43). -/
  addr : BitVec 7
  /-- `EPHALT`; its bits 0 and 1 are hardwired 0 (R44). -/
  ephalt : BitVec 6
  /-- `MODEN` (R45). -/
  moden : Bool
  /-- The input `VBUS` as the environment last drove it (R46, R353). -/
  vbus : Bool
  /-- The input `SE0` as the environment last drove it (R46, R353). -/
  se0 : Bool
  /-- `STAGE` (R47). -/
  stage : BitVec 2
  /-- `REMAIN` (R48). -/
  remain : BitVec 16
  /-- `SRC.t` (R49). -/
  srcT : BitVec 3
  /-- `SRC.off` (R49). -/
  srcOff : BitVec 8
  /-- `HANDLED` (R50). -/
  handled : Bool
  /-- `RXTOT` (R51). -/
  rxtot : BitVec 16
  /-- `SETUP` (R52). -/
  setup : BitVec 64
  /-- Byte 0 of `RESPBUF` (R53). -/
  respBuf0 : BitVec 8
  /-- Byte 1 of `RESPBUF` (R53). -/
  respBuf1 : BitVec 8
  /-- `DEVSTATE` (R54). -/
  devstate : BitVec 3
  /-- `SUSP` (R55). -/
  susp : Bool
  /-- `RWU` (R56). -/
  rwu : Bool
  /-- `SELFPWR` (R57). -/
  selfpwr : Bool
  /-- `CONFIG` (R58). -/
  config : BitVec 8
  /-- `PADDR` (R59). -/
  paddr : BitVec 7
  /-- `APEND` (R59). -/
  apend : Bool
  /-- Buffer RAM (R80). -/
  mem : Memory
  /-- The model's own: how many free draws of unwritten buffer RAM were taken (assumption log 5). -/
  draws : Nat
  /-- The model's own: the agents' steps still to come, oldest first (assumption log 1). -/
  agenda : List Line
  /-- The model's own: the word standing on the internal BD-operation bus, if any (assumption log 3). -/
  bdBus : Option (BitVec 16)
  /-- The model's own: the last answer of the command port (assumption log 2). -/
  resp : Option Resp
  /-- The model's own: the event of the last SIE move (assumption log 2). -/
  event : Option Event
  /-- The model's own: the last answer of a BD operation taken from the bus (assumption log 2). -/
  bdAnswer : Option BdAnswer
  deriving DecidableEq, Repr

/-- The model faults of R376: values no rule writes. A fault is the end of the run. All are safe: they can only make a
claim about an unreachable state unprovable. -/
inductive Fault where
  /-- `STAGE = 3` was read (R47); raised by whatever reads the stage. Safe. -/
  | badStage
  /-- `DEVSTATE >= 6` was read (R54); raised by whatever reads the device state. Safe. -/
  | badDevState
  /-- A ROM read of table 6 or 7, or past the table's end (R86); raised by the Data-In chunk. Safe. -/
  | romOutOfRange
  /-- A reserved word on the BD-operation bus (R136, R169); raised by the step that takes it. Safe. -/
  | badBdop
  deriving DecidableEq, Repr

/-- Why there is no step. -/
inductive Refusal where
  /-- An instruction the model gives no meaning; raised by `exec` alone. Safe. -/
  | notModelled (mnemonic : String)
  /-- A move the environment never makes: a SETUP or OUT of more than 64 bytes (R340, R342, R354); raised by the step
  that meets such a line. Safe: the model has no transition for it (93_implementation_defined.md U18). -/
  | notAMove
  deriving DecidableEq, Repr

/-- A buffer descriptor at power-on, with this base (R39). -/
def Bd.powerOn (base : Byte) : Bd :=
  { own := .sw, dts := false, stall := false, count := 0, addr := base }

/-- Power-on reset (R63, R390). The inputs hold 0 (assumption log 4), buffer RAM lists nothing (R84), and nothing
stands on the agenda, the bus or the answers. -/
def State.reset : State where
  bds :=
    { ep0Out := .powerOn 0x00, ep0In := .powerOn 0x40, ep1Out := .powerOn 0x80, ep1In := .powerOn 0x88,
      ep2Out := .powerOn 0x90, ep2In := .powerOn 0x98 }
  uir := 0x00
  ustat := 0x00
  epen := 0b000
  addr := 0
  ephalt := 0b000000
  moden := false
  vbus := false
  se0 := false
  stage := 0
  remain := 0
  srcT := 0
  srcOff := 0
  handled := false
  rxtot := 0
  setup := 0
  respBuf0 := 0x00
  respBuf1 := 0x00
  devstate := 0
  susp := false
  rwu := false
  selfpwr := false
  config := 0
  paddr := 0
  apend := false
  mem := []
  draws := 0
  agenda := []
  bdBus := none
  resp := none
  event := none
  bdAnswer := none

end Sys2Proof.Machine
end

