-- ==== Sys2Proof/Machine/Flags.lean ====
section
/-! DEFINITION. The 1-bit flags: the bits of `UIR` (R40), the endpoint enables (R42), the endpoint halts with their
hardwired bits (R44), and the reading of `STAGE` and `DEVSTATE`, whose reserved values are model faults (R376). -/

namespace Sys2Proof.Machine

/-! ## UIR (R40, R111) -/

/-- `UIR.URST`, bit 0. -/
abbrev uirURST : Nat := 0
/-- `UIR.UERR`, bit 1. -/
abbrev uirUERR : Nat := 1
/-- `UIR.ACTV`, bit 2. -/
abbrev uirACTV : Nat := 2
/-- `UIR.TRN`, bit 3. -/
abbrev uirTRN : Nat := 3
/-- `UIR.IDLE`, bit 4. -/
abbrev uirIDLE : Nat := 4
/-- `UIR.STALL`, bit 5. -/
abbrev uirSTALL : Nat := 5
/-- `UIR.SOF`, bit 6. -/
abbrev uirSOF : Nat := 6

/-- The byte with only bit `k` set. -/
def bitMask (k : Nat) : Byte := BitVec.twoPow 8 k

/-- One flag of `UIR`. -/
def State.uirBit (s : State) (k : Nat) : Bool := s.uir.getLsbD k

/-- Set one flag: only the SIE does (R40). -/
def State.setUir (s : State) (k : Nat) : State := { s with uir := s.uir ||| bitMask k }

/-- Clear one flag and leave the others as they are: only the pump does (R40). -/
def State.clearUir (s : State) (k : Nat) : State := { s with uir := s.uir &&& ~~~(bitMask k) }

/-! ## EPEN (R42) -/

/-- `EPEN[e]`. -/
def State.enabled (s : State) (e : Nat) : Bool := s.epen.getLsbD e

/-- `EPEN[1] <- 0; EPEN[2] <- 0`. -/
def epenBulkOff (e : BitVec 3) : BitVec 3 := e &&& 0b001

/-- `EPEN[1] <- 1; EPEN[2] <- 1`. -/
def epenBulkOn (e : BitVec 3) : BitVec 3 := e ||| 0b110

/-! ## EPHALT (R44) -/

/-- `EPHALT[i]`. Bits 0 and 1 are hardwired 0: they read 0 whatever the register holds (assumption log 18). -/
def haltOf (h : BitVec 6) (i : BdIndex) : Bool := decide (2 ≤ i.val) && h.getLsbD i.val

/-- `EPHALT[i] <- b`; a write to bit 0 or 1 is ignored. -/
def writeHalt (h : BitVec 6) (i : BdIndex) (b : Bool) : BitVec 6 :=
  if i.val < 2 then h
  else if b then h ||| BitVec.twoPow 6 i.val
  else h &&& ~~~(BitVec.twoPow 6 i.val)

/-- `EPHALT[i]` of the state. -/
def State.halted (s : State) (i : BdIndex) : Bool := haltOf s.ephalt i

/-! ## STAGE (R47) -/

/-- The three stages of the control engine (R190). -/
inductive Stage where
  | setup
  | dataOut
  | dataIn
  deriving DecidableEq, Repr

/-- `0 = Setup`. -/
abbrev stageSetup : BitVec 2 := 0
/-- `1 = DataOut`. -/
abbrev stageDataOut : BitVec 2 := 1
/-- `2 = DataIn`. -/
abbrev stageDataIn : BitVec 2 := 2

/-- The stage the register holds; 3 is reserved. -/
def State.stage? (s : State) : Option Stage :=
  if s.stage = stageSetup then some .setup
  else if s.stage = stageDataOut then some .dataOut
  else if s.stage = stageDataIn then some .dataIn
  else none

/-! ## DEVSTATE (R54) -/

/-- `0 = Detached`. -/
abbrev devDetached : BitVec 3 := 0
/-- `1 = Attached`. -/
abbrev devAttached : BitVec 3 := 1
/-- `2 = Powered`. -/
abbrev devPowered : BitVec 3 := 2
/-- `3 = Default`. -/
abbrev devDefault : BitVec 3 := 3
/-- `4 = Address`. -/
abbrev devAddress : BitVec 3 := 4
/-- `5 = Configured`. -/
abbrev devConfigured : BitVec 3 := 5

/-- Whether `DEVSTATE` holds one of its six values; 6 and 7 are reserved. -/
def State.devOk (s : State) : Bool := decide (s.devstate ≤ devConfigured)

/-- `DEVSTATE >= Default`: "The order of the encoding is used by the comparison" (R54). -/
def State.atLeastDefault (s : State) : Bool := decide (devDefault ≤ s.devstate)

end Sys2Proof.Machine
end

