-- ==== Sys2Proof/Config.lean ====
section
/-! DEFINITION. What an instance of the block fixes and the spec leaves open: the descriptor parameters (00_scope.md
R8, 92_eei_decisions.md section 2) and the free draws of unwritten buffer RAM (20_memory.md R84). Every constant here
is opaque: no proof can see its value, so a theorem holds for every instance. -/

namespace Sys2Proof.Config

/-- The free draws of unwritten buffer RAM: the n-th draw of a run may be any byte (R84). Assumption log 5. -/
opaque freeByte : Nat → Byte

/-- `DEV_DESC_REST`: bytes 2..6 and 8..16 of the device descriptor, by their offset in it (R87). Assumption log 6. -/
opaque devDescRest : Nat → Byte

/-- `CFG_HDR_REST`: bytes 5..8 of the configuration set, by their offset in it (R88). -/
opaque cfgHdrRest : Nat → Byte

/-- `IF_REST`: bytes 14..17 of the configuration set, by their offset in it (R88). -/
opaque ifRest : Nat → Byte

/-- `EP_INTERVALS`: the polling-interval bytes of the four endpoint descriptors, 0..3 in their order (R88). -/
opaque epInterval : Nat → Byte

/-- The number of UTF-16 code units of string 1. `TLEN = 2 + 2*units` is even and between 2 and 254, which is what
`2 <= s[0] <= 255` with `s[0]` even admits (R90). -/
opaque str1Units : Fin 127

/-- The text bytes of string 1, counted from its byte 2 (R90). -/
opaque str1Byte : Nat → Byte

/-- The number of UTF-16 code units of string 2 (R90). -/
opaque str2Units : Fin 127

/-- The text bytes of string 2, counted from its byte 2 (R90). -/
opaque str2Byte : Nat → Byte

end Sys2Proof.Config
end

