-- ==== Sys2Proof/Machine/Operands.lean ====
section
/-! DEFINITION. Every operand form: endpoint and direction to BD index (R14), the endpoint operand of a request
(R119, R253), the fixed packet sizes and buffer bases (R6, R82), the descriptor tables (R86 to R91), and the words
the block answers with or shows (R110, R113, R115). -/

namespace Sys2Proof.Machine

/-! ## Endpoints -/

/-- A direction: `OUT = 0` is host to device, `IN = 1` device to host (R14). -/
inductive Dir where
  | outward
  | inward
  deriving DecidableEq, Repr

/-- `bd(ep, dir) = 2*ep + dir` (R14). -/
def bdOf (ep : Fin 3) : Dir → BdIndex
  | .outward => ⟨2 * ep.val, by omega⟩
  | .inward => ⟨2 * ep.val + 1, by omega⟩

/-- The endpoint of a 4-bit endpoint number, if the block has it (R5). -/
def epOf (ep : BitVec 4) : Option (Fin 3) :=
  if h : ep.toNat < 3 then some ⟨ep.toNat, h⟩ else none

/-- A bulk endpoint, 1 or 2, of a command (R119, R321). -/
def bulkEp (ep : BitVec 4) : Option (Fin 3) :=
  if ep = 1 then some 1 else if ep = 2 then some 2 else none

/-- `MAXPKT(i/2)`: 64, 7 and 1 bytes (R6). -/
def maxPkt (i : BdIndex) : Nat :=
  match i.val / 2 with
  | 0 => 64
  | 1 => 7
  | _ => 1

/-- `BASE(i)` (R82). -/
def baseOf (i : BdIndex) : Byte :=
  match i.val with
  | 0 => 0x00
  | 1 => 0x40
  | 2 => 0x80
  | 3 => 0x88
  | 4 => 0x90
  | _ => 0x98

/-- `EPOPERAND(wIndex)`: endpoint and direction, or nothing when the layout is bad or the endpoint is above 2
(R253). -/
def epOperand (w : BitVec 16) : Option (Fin 3 × Dir) :=
  if w.extractLsb' 8 8 ≠ 0 ∨ w.extractLsb' 4 3 ≠ 0 then none
  else
    match epOf (w.extractLsb' 0 4) with
    | none => none
    | some ep => some (ep, if w.getLsbD 7 then .inward else .outward)

/-- `LE64(b)` of eight bytes (R12, R130). -/
def le64 (b : List Byte) : BitVec 64 :=
  BitVec.ofNat 64 (b.foldr (fun x acc => x.toNat + 256 * acc) 0)

/-- `LE16 at k` of a byte string (R13). -/
def le16At (b : List Byte) (k : Nat) : BitVec 16 := (b.getD (k + 1) 0) ++ (b.getD k 0)

/-! ## The descriptor tables (R86 to R91) -/

/-- `DEV_DESC`, 18 bytes (R87). -/
def devDesc : List Byte :=
  [0x12, 0x01] ++ (List.range' 2 5).map Config.devDescRest ++ [0x40] ++ (List.range' 8 9).map Config.devDescRest
    ++ [0x01]

/-- `CFG_DESC`, 46 bytes: header, interface, EP1-IN, EP1-OUT, EP2-IN, EP2-OUT (R88). -/
def cfgDesc : List Byte :=
  [0x09, 0x02, 0x2E, 0x00, 0x01] ++ (List.range' 5 4).map Config.cfgHdrRest
    ++ [0x09, 0x04, 0x00, 0x00, 0x04] ++ (List.range' 14 4).map Config.ifRest
    ++ [0x07, 0x05, 0x81, 0x02, 0x07, 0x00, Config.epInterval 0]
    ++ [0x07, 0x05, 0x01, 0x02, 0x07, 0x00, Config.epInterval 1]
    ++ [0x07, 0x05, 0x82, 0x02, 0x01, 0x00, Config.epInterval 2]
    ++ [0x07, 0x05, 0x02, 0x02, 0x01, 0x00, Config.epInterval 3]

/-- `STR0_DESC = 04 03 09 04` (R89). -/
def str0Desc : List Byte := [0x04, 0x03, 0x09, 0x04]

/-- A string descriptor of this many UTF-16 code units (R90). -/
def strDesc (units : Fin 127) (text : Nat → Byte) : List Byte :=
  [BitVec.ofNat 8 (2 + 2 * units.val), 0x03] ++ (List.range (2 * units.val)).map text

/-- `STR1_DESC` (R90). -/
def str1Desc : List Byte := strDesc Config.str1Units Config.str1Byte

/-- `STR2_DESC` (R90). -/
def str2Desc : List Byte := strDesc Config.str2Units Config.str2Byte

/-- The bytes of table `t`, `RESPBUF` among them; tables 6 and 7 are reserved (R86). -/
def State.table (s : State) (t : BitVec 3) : Option (List Byte) :=
  if t = 0 then some [s.respBuf0, s.respBuf1]
  else if t = 1 then some devDesc
  else if t = 2 then some cfgDesc
  else if t = 3 then some str0Desc
  else if t = 4 then some str1Desc
  else if t = 5 then some str2Desc
  else none

/-- `TLEN(t)`; 0 for the reserved tables, which have none (R86). -/
def tlen (t : BitVec 3) : Nat :=
  if t = 0 then 2
  else if t = 1 then 18
  else if t = 2 then 46
  else if t = 3 then 4
  else if t = 4 then 2 + 2 * Config.str1Units.val
  else if t = 5 then 2 + 2 * Config.str2Units.val
  else 0

/-- `DLEN(t)`: "the table's own declared length", byte 0 of the table, and for the configuration set the LE16 at
2 (R91). Only the descriptors have one. -/
def dlen (t : BitVec 3) : BitVec 16 :=
  if t = 1 then (devDesc.getD 0 0).setWidth 16
  else if t = 2 then le16At cfgDesc 2
  else if t = 3 then (str0Desc.getD 0 0).setWidth 16
  else if t = 4 then (str1Desc.getD 0 0).setWidth 16
  else if t = 5 then (str2Desc.getD 0 0).setWidth 16
  else 0

/-! ## Words the block answers with or shows -/

/-- BDWORD, the 32-bit image of a buffer descriptor (R110). -/
def Bd.image (b : Bd) : BitVec 32 :=
  0#13 ++ BitVec.ofBool b.stall ++ BitVec.ofBool b.dts ++ BitVec.ofBool (b.own == .hw) ++ b.addr ++ b.count

/-- PUMPIN, the view one pump step decodes (R113). -/
def State.view (s : State) : BitVec 16 :=
  0#1 ++ s.devstate ++ 0#1 ++ BitVec.ofBool s.moden ++ BitVec.ofBool s.se0 ++ BitVec.ofBool s.vbus ++ s.uir

/-- The answer word of BULK_WRITE and BULK_READ: `r[7:0] = n`, `ERR = 0` (R115). -/
def respCount (n : Byte) : BitVec 32 := n.setWidth 32

/-- The answer of a refused command (R115, R321). -/
def respRefused : Resp := { r := 0x80000000, q := [] }

/-- The answer word of STATUS (R115, R326). -/
def State.statusWord (s : State) : BitVec 32 :=
  0#6 ++ s.stage ++ s.config ++ BitVec.ofBool s.apend ++ s.addr ++ 0#1 ++ BitVec.ofBool s.handled
    ++ BitVec.ofBool s.selfpwr ++ BitVec.ofBool s.rwu ++ BitVec.ofBool s.susp ++ s.devstate

/-- `USTAT` of a completed SETUP (R340). -/
def ustatSetup : Byte := 0x40

/-- `USTAT` of a completed OUT on this endpoint (R342). -/
def ustatOut (ep : Fin 3) : Byte := BitVec.ofNat 8 ep.val

/-- `USTAT` of a completed IN on this endpoint (R345). -/
def ustatIn (ep : Fin 3) : Byte := 0x30 ||| BitVec.ofNat 8 ep.val

end Sys2Proof.Machine
end

