-- ==== Sys2Proof/Machine/Ops.lean ====
section
/-! DEFINITION. The operations every meaning is built from: buffer RAM (R83), the descriptor ROM (R86), the BD
operations ARM, DRAIN, RECLAIM and FILL (40_bd_handshake.md), the named sub-procedures of the control engine
(41_control_engine.md), the bus-reset and detach handlers (70_reset_and_hazards.md). The block has no trap entry and
no trap return (R380, R381): UNHANDLED is the one failure response, and the two handlers the one re-initialisation. -/

namespace Sys2Proof.Machine

/-- What a meaning or a step answers. -/
abbrev Result := Host.Outcome State Fault Refusal

/-- Go on with the next state, or stop where the first part stopped: the statements of one atomic step "read their own
earlier writes in order" (R12). -/
def Result.andThen (r : Result) (k : State → Result) : Result :=
  match r with
  | .next s => k s
  | .fault f => .fault f
  | .refused f => .refused f

/-- The next state, if there is one. -/
def Result.next? (r : Result) : Option State :=
  match r with
  | .next s => some s
  | .fault _ => none
  | .refused _ => none

/-- Go on with the stage, or fault on the reserved value (R47, R376). -/
def withStage (s : State) (k : Stage → Result) : Result :=
  match s.stage? with
  | some st => k st
  | none => .fault .badStage

/-- Go on when the device state is one of its six values, or fault (R54, R376). -/
def withDevState (s : State) (k : Result) : Result :=
  if s.devOk then k else .fault .badDevState

/-! ## Buffer RAM (R80, R83, R84) -/

/-- The byte at an address, if it was ever written. -/
def Memory.lookup : Memory → Nat → Option Byte
  | [], _ => none
  | (k, b) :: m, a => if k = a then some b else Memory.lookup m a

/-- Store one byte, keeping the addresses strictly rising. -/
def Memory.insert : Memory → Nat → Byte → Memory
  | [], a, b => [(a, b)]
  | (k, c) :: m, a, b =>
    if a < k then (a, b) :: (k, c) :: m
    else if a = k then (a, b) :: m
    else (k, c) :: Memory.insert m a b

/-- `BufWrite(a, n, b)`: byte `k` goes to address `a + k`; addresses are 8 bits and wrap (R83, assumption log 7). -/
def Memory.write (m : Memory) (a : Byte) : List Byte → Memory
  | [] => m
  | b :: bs => Memory.write (Memory.insert m a.toNat b) (a + 1) bs

/-- `BufRead(a, n)`, with the draws taken so far and the draws taken after it: a byte never written is a fresh free
draw (R83, R84). -/
def Memory.read (m : Memory) (draws : Nat) (a : Byte) : Nat → List Byte × Nat
  | 0 => ([], draws)
  | n + 1 =>
    match m.lookup a.toNat with
    | some b =>
      let rest := Memory.read m draws (a + 1) n
      (b :: rest.1, rest.2)
    | none =>
      let rest := Memory.read m (draws + 1) (a + 1) n
      (Config.freeByte draws :: rest.1, rest.2)

/-- Addresses strictly rising from `lo` on, and below 256. -/
def Memory.wfFrom : Nat → Memory → Bool
  | _, [] => true
  | lo, (a, _) :: m => decide (lo ≤ a) && decide (a < 256) && Memory.wfFrom (a + 1) m

/-- The canonical form of buffer RAM: addresses strictly rising and below 256. An unlisted address reads as no fixed
value, so no entry is excluded by its value. -/
def Memory.wf (m : Memory) : Bool := Memory.wfFrom 0 m

/-- One byte of the state's buffer RAM, if it was ever written. -/
def State.byteAt (s : State) (a : Nat) : Option Byte := s.mem.lookup a

/-- `BufRead` on the state: the bytes, and the number of draws after it. -/
def State.bufRead (s : State) (a : Byte) (n : Nat) : List Byte × Nat := s.mem.read s.draws a n

/-- `BufWrite` on the state. -/
def State.bufWrite (s : State) (a : Byte) (bytes : List Byte) : State := { s with mem := s.mem.write a bytes }

/-- The state after so many free draws. -/
def State.setDraws (s : State) (n : Nat) : State := { s with draws := n }

/-! ## Descriptor ROM (R86) -/

/-- `RomRead(t, off, n)`; nothing when it is out of range. -/
def State.romRead (s : State) (t : BitVec 3) (off n : Nat) : Option (List Byte) :=
  match s.table t with
  | none => none
  | some b => if off + n ≤ b.length then some ((b.drop off).take n) else none

/-! ## The BD file (R33) -/

/-- `BD[i]`. -/
def BdFile.get (f : BdFile) (i : BdIndex) : Bd :=
  match i with
  | 0 => f.ep0Out
  | 1 => f.ep0In
  | 2 => f.ep1Out
  | 3 => f.ep1In
  | 4 => f.ep2Out
  | 5 => f.ep2In

/-- `BD[i] <- b`. -/
def BdFile.set (f : BdFile) (i : BdIndex) (b : Bd) : BdFile :=
  match i with
  | 0 => { f with ep0Out := b }
  | 1 => { f with ep0In := b }
  | 2 => { f with ep1Out := b }
  | 3 => { f with ep1In := b }
  | 4 => { f with ep2Out := b }
  | 5 => { f with ep2In := b }

/-- `BD[i]` of the state. -/
def State.bd (s : State) (i : BdIndex) : Bd := s.bds.get i

/-- Replace the BD file. -/
def State.setBds (s : State) (f : BdFile) : State := { s with bds := f }

/-- The smaller of a byte count and `MAXPKT(i/2)` (R163). -/
def clampPkt (i : BdIndex) (n : Byte) : Byte :=
  if n.toNat ≤ maxPkt i then n else BitVec.ofNat 8 (maxPkt i)

/-- The descriptor after ARM: unchanged when the SIE owns it (R161, R162). -/
def Bd.armed (b : Bd) (i : BdIndex) (len : Byte) (t : Bool) : Bd :=
  match b.own with
  | .hw => b
  | .sw => { own := .hw, dts := xor b.dts t, stall := b.stall, count := clampPkt i len, addr := baseOf i }

/-- ARM on the file (R161). -/
def BdFile.arm (f : BdFile) (i : BdIndex) (len : Byte) (t : Bool) : BdFile := f.set i ((f.get i).armed i len t)

/-- ARM (R161). -/
def State.arm (s : State) (i : BdIndex) (len : Byte) (t : Bool) : State := s.setBds (s.bds.arm i len t)

/-- The answer `(ok, n)` of ARM (R161, R162). -/
def State.armAnswer (s : State) (i : BdIndex) (len : Byte) : BdAnswer :=
  match (s.bd i).own with
  | .hw => { ok := false, n := 0, bytes := [] }
  | .sw => { ok := true, n := clampPkt i len, bytes := [] }

/-- The count DRAIN copies: `min(max, count, MAXPKT)` (R166). -/
def drainCount (b : Bd) (i : BdIndex) (max : Byte) : Byte :=
  clampPkt i (if max.toNat ≤ b.count.toNat then max else b.count)

/-- DRAIN: its answer `(ok, n, bytes)`, and the draws after it; no field and no byte changes (R164, R165). -/
def State.drain (s : State) (i : BdIndex) (max : Byte) : BdAnswer × Nat :=
  match (s.bd i).own with
  | .hw => ({ ok := false, n := 0, bytes := [] }, s.draws)
  | .sw =>
    let n := drainCount (s.bd i) i max
    let read := s.bufRead (baseOf i) n.toNat
    ({ ok := true, n := n, bytes := read.1 }, read.2)

/-- The descriptor after RECLAIM; `dts` is unchanged, since every caller sets it next (R167). -/
def Bd.reclaimed (b : Bd) (i : BdIndex) : Bd :=
  { own := .sw, dts := b.dts, stall := false, count := 0, addr := baseOf i }

/-- RECLAIM (R167). -/
def State.reclaim (s : State) (i : BdIndex) : State := s.setBds (s.bds.set i ((s.bd i).reclaimed i))

/-- `RECLAIM(i); BD[i].dts <- d`. -/
def Bd.reinit (b : Bd) (i : BdIndex) (d : Bool) : Bd := { b.reclaimed i with dts := d }

/-- `for i in 0..5: RECLAIM(i); BD[i].dts <- 0` (R391, R392). -/
def BdFile.reinitAll (f : BdFile) : BdFile where
  ep0Out := f.ep0Out.reinit 0 false
  ep0In := f.ep0In.reinit 1 false
  ep1Out := f.ep1Out.reinit 2 false
  ep1In := f.ep1In.reinit 3 false
  ep2Out := f.ep2Out.reinit 4 false
  ep2In := f.ep2In.reinit 5 false

/-- `for i in 2..5: RECLAIM(i); BD[i].dts <- 1` (R262, R264). -/
def BdFile.reinitBulk (f : BdFile) : BdFile where
  ep0Out := f.ep0Out
  ep0In := f.ep0In
  ep1Out := f.ep1Out.reinit 2 true
  ep1In := f.ep1In.reinit 3 true
  ep2Out := f.ep2Out.reinit 4 true
  ep2In := f.ep2In.reinit 5 true

/-- FILL(i, b): the first `min(|b|, MAXPKT)` bytes into the buffer of BD `i` (R170). -/
def State.fill (s : State) (i : BdIndex) (bytes : List Byte) : State :=
  s.bufWrite (baseOf i) (bytes.take (maxPkt i))

/-- The two EP0 descriptors with this stall flag. -/
def BdFile.stallEp0 (f : BdFile) (b : Bool) : BdFile :=
  { f with ep0Out := { f.ep0Out with stall := b }, ep0In := { f.ep0In with stall := b } }

/-- The two EP0 descriptors with the toggle cleared. -/
def BdFile.clearEp0Toggles (f : BdFile) : BdFile :=
  { f with ep0Out := { f.ep0Out with dts := false }, ep0In := { f.ep0In with dts := false } }

/-! ## The control engine's sub-procedures (41_control_engine.md) -/

/-- CONTEXT_RESET (R192). -/
def contextReset (s : State) : State :=
  { s with
    stage := stageSetup, handled := false, remain := 0, srcT := 0, srcOff := 0, rxtot := 0, apend := false,
    bds := (s.bds.stallEp0 false).clearEp0Toggles }

/-- UNHANDLED: stall both directions of EP0 (R193). -/
def unhandled (s : State) : State :=
  { s with
    bds := ((s.bds.stallEp0 true).arm 0 64 true).arm 1 0 true, stage := stageSetup }

/-- The length of the next Data-In chunk, `min(REMAIN, 64)` (R197). -/
def chunkLen (remain : BitVec 16) : Nat := min remain.toNat 64

/-- DATAIN_CHUNK (R197). -/
def dataInChunk (s : State) : Result :=
  let n := chunkLen s.remain
  match s.romRead s.srcT s.srcOff.toNat n with
  | none => .fault .romOutOfRange
  | some bytes =>
    .next (({ s.fill 1 bytes with
      srcOff := s.srcOff + BitVec.ofNat 8 n, remain := s.remain - BitVec.ofNat 16 n }).arm 1 (BitVec.ofNat 8 n) true)

/-- START_IN(resp): load REMAIN and SRC, send one chunk, enter DataIn, re-arm EP0 OUT (R194, R196). -/
def startIn (t : BitVec 3) (len wLength : BitVec 16) (s : State) : Result :=
  (dataInChunk { s with
    remain := if len ≤ wLength then len else wLength, srcT := t, srcOff := 0 }).andThen fun s1 =>
      .next (({ s1 with stage := stageDataIn }).arm 0 64 true)

/-- START_OUT (R195). -/
def startOut (s : State) : State :=
  { (s.arm 0 64 true).arm 1 0 true with stage := stageDataOut }

/-- APPLY_ADDRESS (R203). -/
def applyAddress (s : State) : State :=
  if s.apend then
    { s with
      addr := s.paddr, devstate := if s.paddr ≠ 0 then devAddress else devDefault, apend := false }
  else s

/-! ## The device record and the verdict of the dispatcher (R209, R230) -/

/-- The record the dispatcher sees. -/
def State.devRec (s : State) : DevRec where
  devstate := s.devstate
  rwu := s.rwu
  selfpwr := s.selfpwr
  config := s.config
  paddr := s.paddr
  apend := s.apend
  ephalt := s.ephalt

/-- Write the record back: "Only `RWU`, `EPHALT`, `PADDR`, `APEND`, `CONFIG` and `DEVSTATE` can differ" (R230). -/
def State.withRec (s : State) (d : DevRec) : State :=
  { s with
    devstate := d.devstate, rwu := d.rwu, config := d.config, paddr := d.paddr, apend := d.apend,
    ephalt := d.ephalt }

/-- The endpoint action of a request (R230). -/
inductive Act where
  | none
  | cfgOff
  | cfgOn
  deriving DecidableEq, Repr

/-- `(h, resp, rec', act)`; `resp = (t, len, rb)` (R230). -/
structure Verdict where
  handled : Bool
  table : BitVec 3
  len : BitVec 16
  rb : Option (Byte × Byte)
  devRec : DevRec
  act : Act
  deriving DecidableEq, Repr

/-- `UNH = (0, -, rec, NONE)` (R230). -/
def Verdict.unh (d : DevRec) : Verdict :=
  { handled := false, table := 0, len := 0, rb := none, devRec := d, act := .none }

/-- A handled device-to-host request answered from a table (R233). -/
def Verdict.send (t : BitVec 3) (len : BitVec 16) (d : DevRec) : Verdict :=
  { handled := true, table := t, len := len, rb := none, devRec := d, act := .none }

/-- A handled device-to-host request answered by the first `len` of two computed bytes, through `RESPBUF`
(R230, R233). -/
def Verdict.sendBytes (len : BitVec 16) (b0 b1 : Byte) (d : DevRec) : Verdict :=
  { handled := true, table := 0, len := len, rb := some (b0, b1), devRec := d, act := .none }

/-- A handled host-to-device request: `resp = (0, 0, -)` (R230). -/
def Verdict.accept (d : DevRec) (act : Act) : Verdict :=
  { handled := true, table := 0, len := 0, rb := none, devRec := d, act := act }

/-- CFG_OFF (R262). -/
def cfgOff (s : State) : State :=
  { s with epen := epenBulkOff s.epen, bds := s.bds.reinitBulk, ephalt := 0 }

/-- CFG_ON (R264). -/
def cfgOn (s : State) : State :=
  { s with
    epen := epenBulkOn (epenBulkOff s.epen), ephalt := 0,
    bds := (s.bds.reinitBulk.arm 2 7 true).arm 4 1 true }

/-- The endpoint action (R209). -/
def runAct (s : State) : Act → State
  | .none => s
  | .cfgOff => cfgOff s
  | .cfgOn => cfgOn s

/-- Fill `RESPBUF` when the response names it with bytes (R209, assumption log 21). -/
def State.fillRespBuf (s : State) : Option (Byte × Byte) → State
  | none => s
  | some b => { s with respBuf0 := b.1, respBuf1 := b.2 }

/-- What a handled request does before its data stage: record, action, `RESPBUF`, `HANDLED` (R191, R209). -/
def acceptRequest (v : Verdict) (s : State) : State :=
  { (runAct (s.withRec v.devRec) v.act).fillRespBuf v.rb with handled := true }

/-- What the Setup handler does with a verdict, from the dispatcher's answer to the end of the step (R191, R209). The
dispatcher reads the device record, so a reserved device state faults (R376). -/
def finishRequest (toHost : Bool) (wLength : BitVec 16) (v : Verdict) (s : State) : Result :=
  withDevState s
    (if v.handled then
      if toHost then startIn v.table v.len wLength (acceptRequest v s) else .next (startOut (acceptRequest v s))
    else .next (unhandled { s with handled := false }))

/-! ## Re-initialisation (70_reset_and_hazards.md) -/

/-- What the bus-reset and the detach handler share: every BD back to the block, every record and context register
cleared (R391, R392). -/
def reinitialise (s : State) : State :=
  { s with
    epen := 0b000, bds := s.bds.reinitAll, ephalt := 0b000000, addr := 0, paddr := 0, apend := false,
    config := 0, rwu := false, selfpwr := false, susp := false, stage := stageSetup, handled := false,
    remain := 0, srcT := 0, srcOff := 0, rxtot := 0 }

/-- BUSRESET_HANDLER (R391). -/
def busResetHandler (s : State) : State :=
  { (({ reinitialise s with devstate := devDefault }).clearUir uirTRN).arm 0 64 true with epen := 0b001 }

/-- DETACH_HANDLER (R392). -/
def detachHandler (s : State) : State :=
  { reinitialise s with devstate := devDetached, moden := false, uir := 0x00 }

end Sys2Proof.Machine
end

