-- ==== Sys2Proof/Machine/BdOps.lean ====
section
/-! DEFINITION. The three BD operations as words of the internal bus (40_bd_handshake.md, R116). The block's engines
use the operations of Machine/Ops.lean directly; here they also leave their answer where it can be read. -/

namespace Sys2Proof.Machine

/-- ARM (R161 to R163). -/
def execArm (bd : BdIndex) (len : Byte) (t : Bool) (s : State) : Result :=
  .next { s.arm bd len t with bdAnswer := some (s.armAnswer bd len) }

/-- DRAIN (R164 to R166). -/
def execDrain (bd : BdIndex) (max : Byte) (s : State) : Result :=
  let got := s.drain bd max
  .next { s.setDraws got.2 with bdAnswer := some got.1 }

/-- RECLAIM (R167); it answers nothing (R116). Its precondition (R168) is its callers' (assumption log 9). -/
def execReclaim (bd : BdIndex) (s : State) : Result :=
  .next (s.reclaim bd)

end Sys2Proof.Machine
end

