-- ==== Sys2Proof/WellFormed.lean ====
section
/-! DEFINITION. Which terms the encodings admit: the length field of a command has 8 bits (R114), and a data packet
of the environment has at most 64 bytes (R340, R342). Every other bound is in the type of its operand. -/

namespace Sys2Proof

/-- An instruction its format can encode. Only BULK_WRITE has an operand that can be too long: `len` has 8 bits and
counts the bytes of `D` (R114). -/
def Instr.wf : Instr → Bool
  | .bulkWrite _ data => decide (data.length ≤ 255)
  | .getStatusDev _ _ _ => true
  | .getStatusIf _ _ _ => true
  | .getStatusEp _ _ _ => true
  | .clearFeatureDev _ _ _ => true
  | .clearFeatureEp _ _ _ => true
  | .setFeatureDev _ _ _ => true
  | .setFeatureEp _ _ _ => true
  | .setAddress _ _ _ => true
  | .getDescriptor _ _ _ => true
  | .getConfiguration _ _ _ => true
  | .setConfiguration _ _ _ => true
  | .getInterface _ _ _ => true
  | .setInterface _ _ _ => true
  | .bulkRead _ _ => true
  | .status => true
  | .arm _ _ _ => true
  | .drain _ _ => true
  | .reclaim _ => true
  | .detach => true
  | .attach => true
  | .powered => true
  | .actv => true
  | .urst => true
  | .idle => true
  | .sof => true
  | .stall => true
  | .uerr => true
  | .trn => true
  | .trnEp0Setup => true
  | .trnEp0Out => true
  | .trnEp0In => true
  | .trnEp1Out => true
  | .trnEp2Out => true
  | .trnEp1In => true
  | .trnEp2In => true

/-- A line an agent can take. A SETUP has 0 to 64 bytes (R340) and an OUT at most 64 (R342); the command port takes
any word with any operand and refuses the malformed ones by its answer (R321). -/
def Line.wf : Line → Bool
  | .setup _ bytes => decide (bytes.length ≤ 64)
  | .out _ _ _ bytes => decide (bytes.length ≤ 64)
  | .pump => true
  | .cmd _ _ => true
  | .inToken _ _ => true
  | .inLost _ _ => true
  | .flag _ => true
  | .bus _ _ => true

end Sys2Proof
end

