-- ==== Sys2Proof/Decode.lean ====
section
/-! DEFINITION. The decoder of each port, total, refusing by name; the encoder, from the same tables; and the
numbering of the opcode table (30_encoding.md R110 to R136, opcode_table.json). -/

namespace Sys2Proof

/-! ## SETUP (R130, R135) -/

/-- `S[15:0]`, the request type and the request code (R135). -/
def setupSelector (packet : BitVec 64) : BitVec 16 := packet.extractLsb' 0 16

/-- `S[31:16]` (R130). -/
def setupValue (packet : BitVec 64) : BitVec 16 := packet.extractLsb' 16 16

/-- `S[47:32]` (R130). -/
def setupIndex (packet : BitVec 64) : BitVec 16 := packet.extractLsb' 32 16

/-- `S[63:48]` (R130). -/
def setupLength (packet : BitVec 64) : BitVec 16 := packet.extractLsb' 48 16

/-- `bmRequestType[7]`: 1 is device to host (R131). -/
def setupToHost (packet : BitVec 64) : Bool := packet.getLsbD 7

/-- `bmRequestType[6:5]`: 0 is standard (R131). -/
def setupType (packet : BitVec 64) : BitVec 2 := packet.extractLsb' 5 2

/-- The packet with these fields (R130). -/
def setupPacket (selector wValue wIndex wLength : BitVec 16) : BitVec 64 :=
  wLength ++ wIndex ++ wValue ++ selector

/-- The table of R135. -/
def requestRows : List (BitVec 16 × (BitVec 16 → BitVec 16 → BitVec 16 → Instr)) :=
  [(0x0080, .getStatusDev), (0x0081, .getStatusIf), (0x0082, .getStatusEp), (0x0100, .clearFeatureDev),
   (0x0102, .clearFeatureEp), (0x0300, .setFeatureDev), (0x0302, .setFeatureEp), (0x0500, .setAddress),
   (0x0680, .getDescriptor), (0x0880, .getConfiguration), (0x0900, .setConfiguration), (0x0A81, .getInterface),
   (0x0B01, .setInterface)]

/-- The request a Setup packet names (R230 to R232). -/
def decodeSetup (packet : BitVec 64) : Except DecodeError Instr :=
  if setupType packet ≠ 0 then .error .notStandard
  else
    match requestRows.find? (fun row => row.1 == setupSelector packet) with
    | some row => .ok (row.2 (setupValue packet) (setupIndex packet) (setupLength packet))
    | none => .error .noRequestRow

/-! ## CMD (R114, R321) -/

/-- `c[11:8]` (R114). -/
def cmdEp (c : BitVec 32) : BitVec 4 := c.extractLsb' 8 4

/-- `c[23:16]` (R114). -/
def cmdLen (c : BitVec 32) : Byte := c.extractLsb' 16 8

/-- The command word with this opcode, endpoint and length, its reserved fields 0 (R114). -/
def cmdWord (len : Byte) (ep : BitVec 4) (opc : Byte) : BitVec 32 :=
  0#8 ++ len ++ 0#4 ++ ep ++ opc

/-- The command a word and its data operand name. An endpoint other than 1 or 2 still matches the row; the command
port refuses it in the command's meaning (R321, assumption log 12). -/
def decodeCmd (c : BitVec 32) (data : List Byte) : Except DecodeError Instr :=
  if c &&& 0xFF00F0FF = 0x00000001 then
    if data.length = (cmdLen c).toNat then .ok (.bulkWrite (cmdEp c) data) else .error .badDataLength
  else if c &&& 0xFF00F0FF = 0x00000002 then
    if data.length = 0 then .ok (.bulkRead (cmdEp c) (cmdLen c)) else .error .badDataLength
  else if c = 0x00000003 then
    if data.length = 0 then .ok .status else .error .badDataLength
  else .error .noCommandRow

/-! ## BDOP (R116, R169) -/

/-- `w[4:2]` as a BD index; 6 and 7 are reserved (R116, R136). -/
def bdopIndex (w : BitVec 16) : Option BdIndex :=
  if h : (w.extractLsb' 2 3).toNat < 6 then some ⟨(w.extractLsb' 2 3).toNat, h⟩ else none

/-- `w[15:8]` (R116). -/
def bdopLen (w : BitVec 16) : Byte := w.extractLsb' 8 8

/-- The bus word with these fields, its reserved bits 0 (R116). -/
def bdopWord (len : Byte) (t : Bool) (bd : BdIndex) (op : BitVec 2) : BitVec 16 :=
  len ++ 0#2 ++ BitVec.ofBool t ++ BitVec.ofNat 3 bd.val ++ op

/-- The BD operation a bus word names (R116, R136). -/
def decodeBdop (w : BitVec 16) : Except DecodeError Instr :=
  match bdopIndex w with
  | none => .error .reservedBdop
  | some bd =>
    if w &&& 0x00C3 = 0x0001 then .ok (.arm bd (bdopLen w) (w.getLsbD 5))
    else if w &&& 0x00E3 = 0x0002 then .ok (.drain bd (bdopLen w))
    else if w &&& 0xFFE3 = 0x0003 then .ok (.reclaim bd)
    else .error .reservedBdop

/-! ## PUMPIN (R113, R281) -/

/-- The mask and match of each branch, in the order in which a pump step tests them (R281). -/
def branchRows : List (BitVec 16 × BitVec 16 × Instr) :=
  [(0x0500, 0x0400, .detach), (0x7500, 0x0100, .attach), (0x7300, 0x1100, .powered), (0x0004, 0x0004, .actv),
   (0x0001, 0x0001, .urst), (0x0010, 0x0010, .idle), (0x0040, 0x0040, .sof), (0x0020, 0x0020, .stall),
   (0x0002, 0x0002, .uerr), (0x0008, 0x0008, .trn)]

/-- The first branch, in the order of R281, whose test holds on the view. -/
def decodePumpin (v : BitVec 16) : Except DecodeError Instr :=
  match branchRows.find? (fun row => v &&& row.1 == row.2.1) with
  | some row => .ok row.2.2
  | none => .error .noBranch

/-! ## USTAT (R112, R291) -/

/-- The values of `USTAT[6:0]` that name a transaction (R291). -/
def ustatRows : List (Byte × Instr) :=
  [(0x40, .trnEp0Setup), (0x00, .trnEp0Out), (0x30, .trnEp0In), (0x01, .trnEp1Out), (0x02, .trnEp2Out),
   (0x31, .trnEp1In), (0x32, .trnEp2In)]

/-- The completed transaction the latch names (R291, R294); bit 7 is not looked at. -/
def decodeUstat (u : Byte) : Except DecodeError Instr :=
  match ustatRows.find? (fun row => u &&& 0x7F == row.1) with
  | some row => .ok row.2
  | none => .error .reservedUstat

/-! ## All ports -/

/-- The instruction a word names on its port. -/
def decode : PortWord → Except DecodeError Instr
  | .setup packet => decodeSetup packet
  | .cmd c data => decodeCmd c data
  | .bdop w => decodeBdop w
  | .pumpin v => decodePumpin v
  | .ustat u => decodeUstat u

/-- The word of an instruction, on its port. A PUMPIN branch is encoded as its row's match value, every bit the row
does not look at being 0 (assumption log 22). -/
def encode : Instr → PortWord
  | .getStatusDev v i l => .setup (setupPacket 0x0080 v i l)
  | .getStatusIf v i l => .setup (setupPacket 0x0081 v i l)
  | .getStatusEp v i l => .setup (setupPacket 0x0082 v i l)
  | .clearFeatureDev v i l => .setup (setupPacket 0x0100 v i l)
  | .clearFeatureEp v i l => .setup (setupPacket 0x0102 v i l)
  | .setFeatureDev v i l => .setup (setupPacket 0x0300 v i l)
  | .setFeatureEp v i l => .setup (setupPacket 0x0302 v i l)
  | .setAddress v i l => .setup (setupPacket 0x0500 v i l)
  | .getDescriptor v i l => .setup (setupPacket 0x0680 v i l)
  | .getConfiguration v i l => .setup (setupPacket 0x0880 v i l)
  | .setConfiguration v i l => .setup (setupPacket 0x0900 v i l)
  | .getInterface v i l => .setup (setupPacket 0x0A81 v i l)
  | .setInterface v i l => .setup (setupPacket 0x0B01 v i l)
  | .bulkWrite ep data => .cmd (cmdWord (BitVec.ofNat 8 data.length) ep 0x01) data
  | .bulkRead ep len => .cmd (cmdWord len ep 0x02) []
  | .status => .cmd (cmdWord 0 0 0x03) []
  | .arm bd len t => .bdop (bdopWord len t bd 1)
  | .drain bd max => .bdop (bdopWord max false bd 2)
  | .reclaim bd => .bdop (bdopWord 0 false bd 3)
  | .detach => .pumpin 0x0400
  | .attach => .pumpin 0x0100
  | .powered => .pumpin 0x1100
  | .actv => .pumpin 0x0004
  | .urst => .pumpin 0x0001
  | .idle => .pumpin 0x0010
  | .sof => .pumpin 0x0040
  | .stall => .pumpin 0x0020
  | .uerr => .pumpin 0x0002
  | .trn => .pumpin 0x0008
  | .trnEp0Setup => .ustat 0x40
  | .trnEp0Out => .ustat 0x00
  | .trnEp0In => .ustat 0x30
  | .trnEp1Out => .ustat 0x01
  | .trnEp2Out => .ustat 0x02
  | .trnEp1In => .ustat 0x31
  | .trnEp2In => .ustat 0x32

/-! ## The opcode table's numbering -/

/-- Whether a port decodes a word. -/
def isRow (p : PortWord) : Bool :=
  match decode p with
  | .ok _ => true
  | .error _ => false

/-- The data operand a bare command word is given: as many zero bytes as BULK_WRITE requires, none for the others. -/
def tableData (c : BitVec 32) : List Byte :=
  if c &&& 0xFF00F0FF = 0x00000001 then List.replicate (cmdLen c).toNat 0 else []

/-- The ports a word of this many bits can stand on, in the order in which they are tried. The table gives no port,
and one bit pattern can be a row of several; the first port that decodes the word is taken (assumption log 13). -/
def tablePorts (nbits w : Nat) : List PortWord :=
  if nbits ≤ 8 then
    [.ustat (BitVec.ofNat 8 w), .pumpin (BitVec.ofNat 16 w), .bdop (BitVec.ofNat 16 w)]
  else if nbits ≤ 16 then
    [.setup (BitVec.ofNat 64 w), .bdop (BitVec.ofNat 16 w), .pumpin (BitVec.ofNat 16 w)]
  else if nbits ≤ 32 then
    [.cmd (BitVec.ofNat 32 w) (tableData (BitVec.ofNat 32 w)), .setup (BitVec.ofNat 64 w)]
  else [.setup (BitVec.ofNat 64 w)]

/-- The port word that stands for a word of the table: the first port that decodes it. -/
def tablePort (nbits w : Nat) : Option PortWord :=
  (tablePorts nbits w).find? isRow

/-- The instruction the decoder reads from a word numbered as the opcode table numbers it; every bit above `nbits`
is 0. -/
def decodeTableWord (nbits w : Nat) : Option Instr :=
  match tablePort nbits (w % 2 ^ nbits) with
  | some p => (decode p).toOption
  | none => none

end Sys2Proof
end

