-- ==== Sys2Proof/Machine/Requests.lean ====
section
/-! DEFINITION. The thirteen standard requests (42_std_requests.md). Each has its verdict, a pure function of its
operands and the device record (R230), and its meaning: what the Setup handler does with that verdict (R209). -/

namespace Sys2Proof.Machine

/-! ## Verdicts -/

/-- R234. -/
def verdictGetStatusDev (d : DevRec) : Verdict :=
  .sendBytes 2 (0#6 ++ BitVec.ofBool d.rwu ++ BitVec.ofBool d.selfpwr) 0x00 d

/-- R235. -/
def verdictGetStatusIf (wIndex : BitVec 16) (d : DevRec) : Verdict :=
  if wIndex ≠ 0 then .unh d else .sendBytes 2 0x00 0x00 d

/-- R236. -/
def verdictGetStatusEp (wIndex : BitVec 16) (d : DevRec) : Verdict :=
  match epOperand wIndex with
  | none => .unh d
  | some (ep, dir) => .sendBytes 2 ((BitVec.ofBool (haltOf d.ephalt (bdOf ep dir))).setWidth 8) 0x00 d

/-- R240. -/
def verdictClearFeatureDev (wValue : BitVec 16) (d : DevRec) : Verdict :=
  if wValue ≠ 0x0001 then .unh d else .accept { d with rwu := false } .none

/-- R241. -/
def verdictSetFeatureDev (wValue : BitVec 16) (d : DevRec) : Verdict :=
  if wValue ≠ 0x0001 then .unh d else .accept { d with rwu := true } .none

/-- SET_FEATURE and CLEAR_FEATURE of the endpoint halt; EP0 is excluded (R250 to R252). -/
def verdictHalt (wValue wIndex : BitVec 16) (b : Bool) (d : DevRec) : Verdict :=
  if wValue ≠ 0x0000 then .unh d
  else
    match epOperand wIndex with
    | none => .unh d
    | some (ep, dir) =>
      if ep = 0 then .unh d
      else .accept { d with ephalt := writeHalt d.ephalt (bdOf ep dir) b } .none

/-- R250. -/
def verdictSetFeatureEp (wValue wIndex : BitVec 16) (d : DevRec) : Verdict := verdictHalt wValue wIndex true d

/-- R251. -/
def verdictClearFeatureEp (wValue wIndex : BitVec 16) (d : DevRec) : Verdict := verdictHalt wValue wIndex false d

/-- R255, R256. -/
def verdictSetAddress (wValue : BitVec 16) (d : DevRec) : Verdict :=
  if 127 < wValue.toNat then .unh d
  else if d.devstate = devConfigured then .unh d
  else .accept { d with paddr := wValue.setWidth 7, apend := true } .none

/-- R258 to R261. -/
def verdictGetDescriptor (wValue : BitVec 16) (d : DevRec) : Verdict :=
  let ty : Byte := wValue.extractLsb' 8 8
  let ix : Byte := wValue.extractLsb' 0 8
  if ty = 0x01 then .send 1 (dlen 1) d
  else if ty = 0x02 ∧ ix = 0 then .send 2 (dlen 2) d
  else if ty = 0x03 ∧ ix ≤ 2 then .send (3 + ix.setWidth 3) (dlen (3 + ix.setWidth 3)) d
  else .unh d

/-- R265. -/
def verdictGetConfiguration (d : DevRec) : Verdict := .sendBytes 1 d.config 0x00 d

/-- R262, R263. -/
def verdictSetConfiguration (wValue : BitVec 16) (d : DevRec) : Verdict :=
  let value : Byte := wValue.extractLsb' 0 8
  if value = 0 then .accept { d with config := 0, devstate := devAddress } .cfgOff
  else .accept { d with config := value, devstate := devConfigured } .cfgOn

/-- R266. -/
def verdictGetInterface (wIndex : BitVec 16) (d : DevRec) : Verdict :=
  if wIndex ≠ 0 then .unh d else .sendBytes 1 0x00 0x00 d

/-- R267. -/
def verdictSetInterface (wValue wIndex : BitVec 16) (d : DevRec) : Verdict :=
  if wIndex ≠ 0 ∨ wValue ≠ 0 then .unh d else .accept d .none

/-! ## Meanings -/

/-- GET_STATUS, device recipient (R234). -/
def execGetStatusDev (_wValue _wIndex wLength : BitVec 16) (s : State) : Result :=
  finishRequest true wLength (verdictGetStatusDev s.devRec) s

/-- GET_STATUS, interface recipient (R235). -/
def execGetStatusIf (_wValue wIndex wLength : BitVec 16) (s : State) : Result :=
  finishRequest true wLength (verdictGetStatusIf wIndex s.devRec) s

/-- GET_STATUS, endpoint recipient (R236). -/
def execGetStatusEp (_wValue wIndex wLength : BitVec 16) (s : State) : Result :=
  finishRequest true wLength (verdictGetStatusEp wIndex s.devRec) s

/-- CLEAR_FEATURE, device recipient (R240). -/
def execClearFeatureDev (wValue _wIndex wLength : BitVec 16) (s : State) : Result :=
  finishRequest false wLength (verdictClearFeatureDev wValue s.devRec) s

/-- CLEAR_FEATURE, endpoint recipient (R251). -/
def execClearFeatureEp (wValue wIndex wLength : BitVec 16) (s : State) : Result :=
  finishRequest false wLength (verdictClearFeatureEp wValue wIndex s.devRec) s

/-- SET_FEATURE, device recipient (R241). -/
def execSetFeatureDev (wValue _wIndex wLength : BitVec 16) (s : State) : Result :=
  finishRequest false wLength (verdictSetFeatureDev wValue s.devRec) s

/-- SET_FEATURE, endpoint recipient (R250). -/
def execSetFeatureEp (wValue wIndex wLength : BitVec 16) (s : State) : Result :=
  finishRequest false wLength (verdictSetFeatureEp wValue wIndex s.devRec) s

/-- SET_ADDRESS (R255). -/
def execSetAddress (wValue _wIndex wLength : BitVec 16) (s : State) : Result :=
  finishRequest false wLength (verdictSetAddress wValue s.devRec) s

/-- GET_DESCRIPTOR (R258). -/
def execGetDescriptor (wValue _wIndex wLength : BitVec 16) (s : State) : Result :=
  finishRequest true wLength (verdictGetDescriptor wValue s.devRec) s

/-- GET_CONFIGURATION (R265). -/
def execGetConfiguration (_wValue _wIndex wLength : BitVec 16) (s : State) : Result :=
  finishRequest true wLength (verdictGetConfiguration s.devRec) s

/-- SET_CONFIGURATION (R262, R263). -/
def execSetConfiguration (wValue _wIndex wLength : BitVec 16) (s : State) : Result :=
  finishRequest false wLength (verdictSetConfiguration wValue s.devRec) s

/-- GET_INTERFACE (R266). -/
def execGetInterface (_wValue wIndex wLength : BitVec 16) (s : State) : Result :=
  finishRequest true wLength (verdictGetInterface wIndex s.devRec) s

/-- SET_INTERFACE (R267). -/
def execSetInterface (wValue wIndex wLength : BitVec 16) (s : State) : Result :=
  finishRequest false wLength (verdictSetInterface wValue wIndex s.devRec) s

end Sys2Proof.Machine
end

