-- ==== Sys2Proof/Machine/Control.lean ====
section
/-! DEFINITION. The transactions the TRN branch routes: the control engine's handlers of EP0 (41_control_engine.md)
and the bulk completions (43_device_state_and_pump.md R293). -/

namespace Sys2Proof.Machine

/-- The verdict of a request the dispatcher recognises; `UNH` for what is no request (R230). -/
def requestVerdict (i : Instr) (d : DevRec) : Verdict :=
  match i with
  | .getStatusDev _ _ _ => verdictGetStatusDev d
  | .getStatusIf _ wIndex _ => verdictGetStatusIf wIndex d
  | .getStatusEp _ wIndex _ => verdictGetStatusEp wIndex d
  | .clearFeatureDev wValue _ _ => verdictClearFeatureDev wValue d
  | .clearFeatureEp wValue wIndex _ => verdictClearFeatureEp wValue wIndex d
  | .setFeatureDev wValue _ _ => verdictSetFeatureDev wValue d
  | .setFeatureEp wValue wIndex _ => verdictSetFeatureEp wValue wIndex d
  | .setAddress wValue _ _ => verdictSetAddress wValue d
  | .getDescriptor wValue _ _ => verdictGetDescriptor wValue d
  | .getConfiguration _ _ _ => verdictGetConfiguration d
  | .setConfiguration wValue _ _ => verdictSetConfiguration wValue d
  | .getInterface _ wIndex _ => verdictGetInterface wIndex d
  | .setInterface wValue wIndex _ => verdictSetInterface wValue wIndex d
  | _ => .unh d

/-- `Dispatch(S, rec)`, a pure function of the Setup packet and the device record (R230 to R232). -/
def dispatchRequest (packet : BitVec 64) (d : DevRec) : Verdict :=
  match decodeSetup packet with
  | .ok i => requestVerdict i d
  | .error _ => .unh d

/-- Step 1 of the Setup stage when the packet has 8 bytes: latch it (R191). -/
def latchSetup (s : State) : State :=
  let read := s.bufRead 0x00 8
  { s with setup := le64 read.1, draws := read.2 }

/-- TRN_EP0_SETUP (R191, R205, R208): latch, reset the context, dispatch, begin the data stage or stall. -/
def execTrnEp0Setup (s : State) : Result :=
  if (s.bd 0).count = 8 then
    let s1 := contextReset (latchSetup s)
    finishRequest (setupToHost s1.setup) (setupLength s1.setup) (dispatchRequest s1.setup s1.devRec) s1
  else .next (unhandled { contextReset s with handled := false })

/-- TRN_EP0_OUT: re-arm (R201), Status OUT (R200), or payload (R206), by the stage. -/
def execTrnEp0Out (s : State) : Result :=
  withStage s fun
    | .setup => .next (s.arm 0 64 true)
    | .dataIn => .next (({ s with stage := stageSetup }).arm 0 64 true)
    | .dataOut => .next (({ s with rxtot := s.rxtot + (s.bd 0).count.setWidth 16 }).arm 0 64 true)

/-- TRN_EP0_IN: nothing (R204), the next chunk (R198) or the end of the Data stage (R199), or the end of the Status
stage, which applies a pending address (R202, R203), by the stage. -/
def execTrnEp0In (s : State) : Result :=
  withStage s fun
    | .setup => .next s
    | .dataIn => if s.remain ≠ 0 then dataInChunk s else .next { s with stage := stageSetup }
    | .dataOut => .next { applyAddress s with stage := stageSetup }

/-- What a bulk completion does: "only clears `UIR.TRN`" (R293). -/
def bulkCompletion (s : State) : State := s.clearUir uirTRN

/-- TRN_EP1_OUT (R293). -/
def execTrnEp1Out (s : State) : Result := .next (bulkCompletion s)

/-- TRN_EP2_OUT (R293). -/
def execTrnEp2Out (s : State) : Result := .next (bulkCompletion s)

/-- TRN_EP1_IN (R293). -/
def execTrnEp1In (s : State) : Result := .next (bulkCompletion s)

/-- TRN_EP2_IN (R293). -/
def execTrnEp2In (s : State) : Result := .next (bulkCompletion s)

end Sys2Proof.Machine
end

