-- ==== Sys2Proof/Machine/Branches.lean ====
section
/-! DEFINITION. The ten branches of a pump step (43_device_state_and_pump.md). -/

namespace Sys2Proof.Machine

/-- DETACH_BR (R284). -/
def execDetach (s : State) : Result := .next (detachHandler s)

/-- ATTACH_BR (R282). -/
def execAttach (s : State) : Result := .next { s with moden := true, devstate := devAttached }

/-- POWERED_BR (R283). -/
def execPowered (s : State) : Result := .next { s with devstate := devPowered }

/-- ACTV_BR (R285). -/
def execActv (s : State) : Result := .next ({ s with susp := false }.clearUir uirACTV)

/-- URST_BR: bus reset in every state but Detached, then the flag is cleared (R286). -/
def execUrst (s : State) : Result :=
  withDevState s
    (.next ((if s.devstate ≠ devDetached then busResetHandler s else s).clearUir uirURST))

/-- IDLE_BR (R287). -/
def execIdle (s : State) : Result := .next ({ s with susp := true }.clearUir uirIDLE)

/-- SOF_BR (R288). -/
def execSof (s : State) : Result := .next (s.clearUir uirSOF)

/-- STALL_BR (R289). -/
def execStall (s : State) : Result := .next (s.clearUir uirSTALL)

/-- UERR_BR (R290). -/
def execUerr (s : State) : Result := .next (s.clearUir uirUERR)

/-- The handler `USTAT` names; "no action" for what matches no row (R291, R294). -/
def routeTransaction (s : State) : Result :=
  match decodeUstat s.ustat with
  | .ok .trnEp0Setup => execTrnEp0Setup s
  | .ok .trnEp0Out => execTrnEp0Out s
  | .ok .trnEp0In => execTrnEp0In s
  | .ok .trnEp1Out => execTrnEp1Out s
  | .ok .trnEp2Out => execTrnEp2Out s
  | .ok .trnEp1In => execTrnEp1In s
  | .ok .trnEp2In => execTrnEp2In s
  | _ => .next s

/-- TRN_BR: route the completed transaction, below Default discard it, then free the latch (R291, R292). -/
def execTrn (s : State) : Result :=
  withDevState s
    ((if s.atLeastDefault then routeTransaction s else .next s).andThen fun s1 => .next (s1.clearUir uirTRN))

end Sys2Proof.Machine
end

