-- ==== Sys2Proof/Machine/Bulk.lean ====
section
/-! DEFINITION. The command port's three commands (44_bulk.md). -/

namespace Sys2Proof.Machine

/-- The answer the port gives: RESP is the only thing a command writes besides what its rule names. -/
def State.answer (s : State) (r : BitVec 32) (q : List Byte) : State := { s with resp := some { r := r, q := q } }

/-- A refused command: "It changes no state and answers `r = 0x80000000`" (R321, R375). -/
def refuseCommand (s : State) : State := s.answer respRefused.r respRefused.q

/-- BULK_WRITE (R321 to R323, R328). -/
def execBulkWrite (ep : BitVec 4) (data : List Byte) (s : State) : Result :=
  match bulkEp ep with
  | none => .next (refuseCommand s)
  | some e =>
    let i := bdOf e .inward
    withDevState s
      (if s.devstate ≠ devConfigured then .next (s.answer (respCount 0) [])
      else
        match (s.bd i).own with
        | .hw => .next (s.answer (respCount 0) [])
        | .sw =>
          let m := BitVec.ofNat 8 (min data.length (maxPkt i))
          let filled := s.fill i data
          .next ((filled.arm i m true).answer (respCount (filled.armAnswer i m).n) []))

/-- BULK_READ (R321, R324, R325, R329, R330). -/
def execBulkRead (ep : BitVec 4) (len : Byte) (s : State) : Result :=
  match bulkEp ep with
  | none => .next (refuseCommand s)
  | some e =>
    let i := bdOf e .outward
    withDevState s
      (if s.devstate ≠ devConfigured then .next (s.answer (respCount 0) [])
      else
        match (s.bd i).own with
        | .hw => .next (s.answer (respCount 0) [])
        | .sw =>
          let got := s.drain i len
          .next (((s.setDraws got.2).arm i (BitVec.ofNat 8 (maxPkt i)) true).answer (respCount got.1.n) got.1.bytes))

/-- STATUS: "reads the block's observable state without changing it" (R326); it reads the stage and the device state,
so a reserved value of either faults (R376). -/
def execStatus (s : State) : Result :=
  withDevState s (withStage s fun _ => .next (s.answer s.statusWord []))

end Sys2Proof.Machine
end

