-- ==== Sys2Proof/Machine/Dispatch.lean ====
section
/-! DEFINITION. One arm per instruction: the meaning it calls. -/

namespace Sys2Proof.Machine

def exec (i : Instr) (s : State) : Host.Outcome State Fault Refusal :=
  match i with
  -- SETUP
  | .getStatusDev wValue wIndex wLength => Sys2Proof.Machine.execGetStatusDev wValue wIndex wLength s
  | .getStatusIf wValue wIndex wLength => Sys2Proof.Machine.execGetStatusIf wValue wIndex wLength s
  | .getStatusEp wValue wIndex wLength => Sys2Proof.Machine.execGetStatusEp wValue wIndex wLength s
  | .clearFeatureDev wValue wIndex wLength => Sys2Proof.Machine.execClearFeatureDev wValue wIndex wLength s
  | .clearFeatureEp wValue wIndex wLength => Sys2Proof.Machine.execClearFeatureEp wValue wIndex wLength s
  | .setFeatureDev wValue wIndex wLength => Sys2Proof.Machine.execSetFeatureDev wValue wIndex wLength s
  | .setFeatureEp wValue wIndex wLength => Sys2Proof.Machine.execSetFeatureEp wValue wIndex wLength s
  | .setAddress wValue wIndex wLength => Sys2Proof.Machine.execSetAddress wValue wIndex wLength s
  | .getDescriptor wValue wIndex wLength => Sys2Proof.Machine.execGetDescriptor wValue wIndex wLength s
  | .getConfiguration wValue wIndex wLength => Sys2Proof.Machine.execGetConfiguration wValue wIndex wLength s
  | .setConfiguration wValue wIndex wLength => Sys2Proof.Machine.execSetConfiguration wValue wIndex wLength s
  | .getInterface wValue wIndex wLength => Sys2Proof.Machine.execGetInterface wValue wIndex wLength s
  | .setInterface wValue wIndex wLength => Sys2Proof.Machine.execSetInterface wValue wIndex wLength s
  -- CMD
  | .bulkWrite ep data => Sys2Proof.Machine.execBulkWrite ep data s
  | .bulkRead ep len => Sys2Proof.Machine.execBulkRead ep len s
  | .status => Sys2Proof.Machine.execStatus s
  -- BDOP
  | .arm bd len t => Sys2Proof.Machine.execArm bd len t s
  | .drain bd max => Sys2Proof.Machine.execDrain bd max s
  | .reclaim bd => Sys2Proof.Machine.execReclaim bd s
  -- PUMPIN
  | .detach => Sys2Proof.Machine.execDetach s
  | .attach => Sys2Proof.Machine.execAttach s
  | .powered => Sys2Proof.Machine.execPowered s
  | .actv => Sys2Proof.Machine.execActv s
  | .urst => Sys2Proof.Machine.execUrst s
  | .idle => Sys2Proof.Machine.execIdle s
  | .sof => Sys2Proof.Machine.execSof s
  | .stall => Sys2Proof.Machine.execStall s
  | .uerr => Sys2Proof.Machine.execUerr s
  | .trn => Sys2Proof.Machine.execTrn s
  -- USTAT
  | .trnEp0Setup => Sys2Proof.Machine.execTrnEp0Setup s
  | .trnEp0Out => Sys2Proof.Machine.execTrnEp0Out s
  | .trnEp0In => Sys2Proof.Machine.execTrnEp0In s
  | .trnEp1Out => Sys2Proof.Machine.execTrnEp1Out s
  | .trnEp2Out => Sys2Proof.Machine.execTrnEp2Out s
  | .trnEp1In => Sys2Proof.Machine.execTrnEp1In s
  | .trnEp2In => Sys2Proof.Machine.execTrnEp2In s

end Sys2Proof.Machine
end

