-- ==== Sys2Proof/Machine/Pump.lean ====
section
/-! DEFINITION. The pump step: every branch is tested, in the order of R281, on the view as the earlier branches of
the same step left it, and each one taken is the branch's instruction (43_device_state_and_pump.md). -/

namespace Sys2Proof.Machine

/-- Take the branches of a list whose tests hold, each on the state the earlier ones left (R281). -/
def runBranches : List (BitVec 16 × BitVec 16 × Instr) → State → Result
  | [], s => .next s
  | row :: rows, s =>
    Result.andThen (if s.view &&& row.1 = row.2.1 then exec row.2.2 s else .next s) (runBranches rows)

/-- PUMP(): one pump step, one atomic transition (R280, R281). It reads the device state, so a reserved one faults
(R376). -/
def pumpStep (s : State) : Result :=
  withDevState s (runBranches branchRows s)

end Sys2Proof.Machine
end

