-- ==== Sys2Proof/Machine/Sie.lean ====
section
/-! DEFINITION. The moves of the environment, the SIE and the host behind it (45_sie_environment.md). Each move is one
atomic transition and leaves its output event in `event` (assumption logs 2 and 16). -/

namespace Sys2Proof.Machine

/-- `emit e` (R12). -/
def State.emit (s : State) (e : Event) : State := { s with event := some e }

/-- The common preconditions of a token move. The answer of a token they stop: `-` when one of the first three fails,
`NAK` when only the last does; otherwise the endpoint (R341, R348). -/
def tokenGate (s : State) (a : BitVec 7) (ep : BitVec 4) : Except Event (Fin 3) :=
  match epOf ep with
  | none => .error .noAnswer
  | some e =>
    if s.moden = true ∧ a = s.addr ∧ s.enabled e.val = true then
      if s.uirBit uirTRN then .error .nak else .ok e
    else .error .noAnswer

/-- What the SIE does when it completes a transaction: give the BD back, post `USTAT`, set `UIR.TRN` (R41, R101). -/
def State.complete (s : State) (i : BdIndex) (ustat : Byte) : State :=
  ({ s with bds := s.bds.set i { s.bd i with own := .sw }, ustat := ustat }).setUir uirTRN

/-- Answer STALL and record that it was sent (R344, R347, R356). -/
def sieStall (s : State) : State := (s.setUir uirSTALL).emit .stall

/-- The received bytes and their count, into BD `i` (R340, R342). -/
def State.receive (s : State) (i : BdIndex) (bytes : List Byte) : State :=
  let s1 := s.bufWrite (baseOf i) bytes
  { s1 with bds := s1.bds.set i { s1.bd i with count := BitVec.ofNat 8 bytes.length } }

/-- SETUP (R340). -/
def sieSetup (a : BitVec 7) (bytes : List Byte) (s : State) : State :=
  match tokenGate s a 0 with
  | .error e => s.emit e
  | .ok _ =>
    match (s.bd 0).own with
    | .sw => s.emit .nak
    | .hw =>
      let s1 := s.receive 0 bytes
      let s2 := s1.setBds (s1.bds.set 1 { s1.bd 1 with own := .sw })
      (s2.complete 0 ustatSetup).emit .ack

/-- OUT: halt (R344), NAK (R346), stall (R344), oversize (R352), retransmission (R343), accepted (R342). -/
def sieOut (a : BitVec 7) (ep : BitVec 4) (d : Bool) (bytes : List Byte) (s : State) : State :=
  match tokenGate s a ep with
  | .error e => s.emit e
  | .ok e =>
    let i := bdOf e .outward
    if s.halted i then sieStall s
    else
      match (s.bd i).own with
      | .sw => s.emit .nak
      | .hw =>
        if (s.bd i).stall then sieStall s
        else if (s.bd i).count.toNat < bytes.length then (s.setUir uirUERR).emit .noAnswer
        else if d ≠ (s.bd i).dts then s.emit .ack
        else ((s.receive i bytes).complete i (ustatOut e)).emit .ack

/-- The packet an IN token is answered with, and the state after reading it (R345). -/
def sieSend (i : BdIndex) (s : State) : State :=
  let read := s.bufRead (baseOf i) (s.bd i).count.toNat
  (s.setDraws read.2).emit (.data (s.bd i).dts read.1)

/-- IN: halt (R347), NAK (R346), stall (R347), sent (R345). When the host's ACK is lost "the transaction never
completes" and the block sees no change. -/
def sieIn (acked : Bool) (a : BitVec 7) (ep : BitVec 4) (s : State) : State :=
  match tokenGate s a ep with
  | .error e => s.emit e
  | .ok e =>
    let i := bdOf e .inward
    if s.halted i then sieStall s
    else
      match (s.bd i).own with
      | .sw => s.emit .nak
      | .hw =>
        if (s.bd i).stall then sieStall s
        else if acked then (sieSend i s).complete i (ustatIn e)
        else sieSend i s

/-- The bit of a flag the SIE raises by a move of its own. -/
def SieFlag.bit : SieFlag → Nat
  | .urst => uirURST
  | .idle => uirIDLE
  | .actv => uirACTV
  | .sof => uirSOF
  | .uerr => uirUERR

/-- FLAG: while `MODEN = 1` the SIE may set the flag; the move changes nothing else (R349 to R352, R357). -/
def sieFlag (f : SieFlag) (s : State) : State :=
  (if s.moden then s.setUir (SieFlag.bit f) else s).emit .noAnswer

/-- BUS: the environment drives the inputs (R353). -/
def sieBus (vbus se0 : Bool) (s : State) : State :=
  ({ s with vbus := vbus, se0 := se0 }).emit .noAnswer

end Sys2Proof.Machine
end

