-- ==== Sys2Proof/Machine/Agents.lean ====
section
/-! DEFINITION. Whose step is next, and what it is (60_exceptions.md R387); how an instruction is placed where the next
step finds it. Step.lean only calls this file. -/

namespace Sys2Proof.Machine

/-- A command on the command port: its meaning, or a refusal by answer (R320, R321). -/
def commandStep (c : BitVec 32) (data : List Byte) (s : State) : Result :=
  match decodeCmd c data with
  | .ok i => exec i s
  | .error _ => .next (refuseCommand s)

/-- A word on the BD-operation bus: its operation, or the model fault of a reserved word (R169, R376). -/
def busStep (w : BitVec 16) (s : State) : Result :=
  match decodeBdop w with
  | .ok i => exec i s
  | .error _ => .fault .badBdop

/-- One line: one atomic step of the agent it names (R99, R138). A line that is no move of the environment has no
transition (R354). -/
def lineStep (l : Line) (s : State) : Result :=
  if l.wf then
    match l with
    | .pump => pumpStep s
    | .cmd c data => commandStep c data s
    | .setup a bytes => .next (sieSetup a bytes s)
    | .out a ep d bytes => .next (sieOut a ep d bytes s)
    | .inToken a ep => .next (sieIn true a ep s)
    | .inLost a ep => .next (sieIn false a ep s)
    | .flag f => .next (sieFlag f s)
    | .bus vbus se0 => .next (sieBus vbus se0 s)
  else .refused .notAMove

/-- The next step: the word on the bus, else the oldest line of the agenda, else a pump step, since "one pump routine
is invoked repeatedly by an unbounded top-level loop" (R280; assumption logs 1 and 3). -/
def takeStep (s : State) : Result :=
  match s.bdBus with
  | some w => busStep w { s with bdBus := none }
  | none =>
    match s.agenda with
    | [] => pumpStep s
    | l :: rest => lineStep l { s with agenda := rest }

/-- The least change of the device state under which the TRN branch routes what `USTAT` names (R292). -/
def routableDevState (d : BitVec 3) : BitVec 3 :=
  if devDefault ≤ d ∧ d ≤ devConfigured then d else devDefault

/-- A state whose next pump step takes the TRN branch and no other, with this latch. -/
def State.withTransaction (s : State) (ustat : Byte) : State :=
  { s with
    bdBus := none, agenda := .pump :: s.agenda, uir := bitMask uirTRN, ustat := ustat, vbus := true,
    devstate := routableDevState s.devstate }

/-- `s` with a word where its port's next word is fetched, so that the next step runs it (assumption log 14): a Setup
packet in the EP0 OUT buffer, completed as a SETUP transaction leaves it; a latch value as a completed transaction; a
view in the registers it shows; a command on the agenda; a BD operation on the bus. -/
def State.withPortWord (s : State) (p : PortWord) : State :=
  match p with
  | .setup packet =>
    let s1 := s.bufWrite 0x00 ((List.range 8).map fun k => packet.extractLsb' (8 * k) 8)
    let f := s1.bds.set 0 { s1.bd 0 with own := .sw, count := 8 }
    (s1.setBds (f.set 1 { f.get 1 with own := .sw })).withTransaction ustatSetup
  | .cmd c data => { s with bdBus := none, agenda := .cmd c data :: s.agenda }
  | .bdop w => { s with bdBus := some w }
  | .pumpin v =>
    { s with
      bdBus := none, agenda := .pump :: s.agenda, uir := v.extractLsb' 0 8, vbus := v.getLsbD 8,
      se0 := v.getLsbD 9, moden := v.getLsbD 10, devstate := v.extractLsb' 12 3 }
  | .ustat u => s.withTransaction u

/-- `s` with an instruction of the opcode table placed where the next step fetches it; a word no port decodes goes to
the first port it could stand on. -/
def placeWord (s : State) (nbits w : Nat) : State :=
  match tablePort nbits (w % 2 ^ nbits) with
  | some p => s.withPortWord p
  | none =>
    match tablePorts nbits (w % 2 ^ nbits) with
    | [] => s
    | p :: _ => s.withPortWord p

end Sys2Proof.Machine
end

