-- ==== Sys2Proof/Safety.lean ====
section
/-! DEFINITION. What a safe state is: the invariants of 10_state.md R61 with the facts that make a step keep them; and
the states, written field by field from the rules, in which the statements say what an instruction leaves. -/

namespace Sys2Proof.Safety

open Sys2Proof.Machine

/-! ## The invariant (R61) -/

/-- (I2): the bulk endpoints are enabled exactly in Configured, EP0 exactly from Default on. -/
def enablesFit (s : State) : Prop :=
  s.enabled 0 = s.atLeastDefault ∧ s.enabled 1 = (s.devstate == devConfigured)
    ∧ s.enabled 2 = (s.devstate == devConfigured)

/-- (I3) of one descriptor. -/
def bdFits (s : State) (i : BdIndex) : Prop :=
  (s.bd i).count.toNat ≤ maxPkt i ∧ (s.bd i).addr = baseOf i

/-- (I4): what remains of a response lies inside its table. -/
def sourceFits (s : State) : Prop :=
  s.stage = stageDataIn → s.remain.toNat ≤ 255 ∧ s.srcOff.toNat + s.remain.toNat ≤ tlen s.srcT

/-- (I7): a latched EP0 transaction has given its descriptor back, and a latched SETUP both of EP0 (R191, R340). -/
def latchFits (s : State) : Prop :=
  s.uirBit uirTRN = true →
    (s.ustat &&& 0x7F = ustatSetup ∨ s.ustat &&& 0x7F = ustatOut 0 → (s.bd 0).own = .sw)
      ∧ (s.ustat &&& 0x7F = ustatSetup ∨ s.ustat &&& 0x7F = ustatIn 0 → (s.bd 1).own = .sw)

/-- From Default on, EP0 OUT waits for a SETUP, unless a latched EP0 OUT or SETUP transaction waits for the pump: "From
power-on this case arises only while UIR.TRN = 1" (R340). -/
def ep0Armed (s : State) : Prop :=
  s.atLeastDefault = true →
    (s.bd 0).own = .hw
      ∨ (s.uirBit uirTRN = true ∧ (s.ustat &&& 0x7F = ustatSetup ∨ s.ustat &&& 0x7F = ustatOut 0))

/-- The invariant: (I1) to (I7) of R61, and what a step needs beside them. It holds at reset and every step keeps
it. -/
structure Legal (s : State) : Prop where
  /-- (I1). -/
  stageLegal : s.stage ≤ stageDataIn
  /-- (I1). -/
  devLegal : s.devstate ≤ devConfigured
  /-- (I2). -/
  enables : enablesFit s
  /-- (I3). -/
  bdsFit : ∀ i, bdFits s i
  /-- (I4). -/
  source : sourceFits s
  /-- (I5). -/
  bulkNotStalled : ∀ i : BdIndex, 2 ≤ i.val → (s.bd i).stall = false
  /-- (I6). -/
  modenFits : s.moden = (s.devstate != devDetached)
  /-- (I7). -/
  latch : latchFits s
  /-- R340. -/
  armed : ep0Armed s
  /-- A pending address is pending only in Default or Address (R255, R256, R295). -/
  pendingFits : s.apend = true → s.devstate = devDefault ∨ s.devstate = devAddress
  /-- The hardwired bits of `EPHALT` (R44). -/
  haltHardwired : s.ephalt &&& 0b000011 = 0
  /-- `SELFPWR` "is 0 at all times" (R57). -/
  selfpwrZero : s.selfpwr = false
  /-- Buffer RAM keeps its canonical form. -/
  memory : s.mem.wf = true
  /-- No agent puts a word on the internal bus (R116, R169). -/
  busQuiet : s.bdBus = none

/-! ## What the rules leave, field by field -/

/-- A descriptor the block owned, after an ARM with toggle: R161 with `t = 1`. -/
def handedOver (b : Bd) (count addr : Byte) : Bd :=
  { own := .hw, dts := !b.dts, stall := b.stall, count := count, addr := addr }

/-- The state in which a handled host-to-device request leaves `s`, its record changes aside (R191, R195). -/
def accepted (s : State) : State :=
  { s with
    handled := true, stage := 1,
    bds :=
      { s.bds with
        ep0Out := handedOver s.bds.ep0Out 64 0x00
        ep0In := handedOver s.bds.ep0In 0 0x40 } }

/-- The state in which a handled device-to-host request leaves `s`, `RESPBUF` aside, when it answers the bytes `b` of
table `t`: the first chunk of at most 64 bytes stands in the EP0 IN buffer (R191, R194, R197). -/
def answered (s : State) (t : BitVec 3) (b : List Byte) (wLength : BitVec 16) : State :=
  let total := min b.length wLength.toNat
  let n := min total 64
  { s with
    handled := true, stage := 2, srcT := t, srcOff := BitVec.ofNat 8 n, remain := BitVec.ofNat 16 (total - n),
    mem := s.mem.write 0x40 (b.take n),
    bds :=
      { s.bds with
        ep0Out := handedOver s.bds.ep0Out 64 0x00
        ep0In := handedOver s.bds.ep0In (BitVec.ofNat 8 n) 0x40 } }

/-- The state in which an unhandled request leaves `s`: both directions of EP0 stalled (R191, R193). -/
def stalled (s : State) : State :=
  { s with
    handled := false, stage := 0,
    bds :=
      { s.bds with
        ep0Out := { own := .hw, dts := !s.bds.ep0Out.dts, stall := true, count := 64, addr := 0x00 }
        ep0In := { own := .hw, dts := !s.bds.ep0In.dts, stall := true, count := 0, addr := 0x40 } } }

/-- The block owns both EP0 descriptors, as it does whenever a Setup packet is handled (R191). -/
def ep0Owned (s : State) : Prop := s.bds.ep0Out.own = .sw ∧ s.bds.ep0In.own = .sw

/-- Running `i` at `s` runs the transaction `h`: `i` is its row, or the TRN branch with a latch that names it (R291,
R292). -/
def runs (s : State) (i h : Instr) : Prop :=
  i = h ∨ (i = .trn ∧ 3 ≤ s.devstate ∧ encode h = .ustat (s.ustat &&& 0x7F))

/-- A descriptor that was reclaimed and given this toggle (R167). -/
def returned (base : Byte) (d : Bool) : Bd :=
  { own := .sw, dts := d, stall := false, count := 0, addr := base }

/-- The cleared registers that bus reset and detach share (R391, R392). -/
def cleared (s : State) : State :=
  { s with
    bds :=
      { ep0Out := returned 0x00 false, ep0In := returned 0x40 false, ep1Out := returned 0x80 false,
        ep1In := returned 0x88 false, ep2Out := returned 0x90 false, ep2In := returned 0x98 false }
    epen := 0, ephalt := 0, addr := 0, paddr := 0, apend := false, config := 0, rwu := false, selfpwr := false,
    susp := false, stage := 0, handled := false, remain := 0, srcT := 0, srcOff := 0, rxtot := 0 }

/-- How many bytes the first chunk of a request's answer stores: none when it is unhandled or goes from host to device
(R193, R195, R197). -/
def replyBytes (toHost : Bool) (v : Verdict) (wLength : BitVec 16) : Nat :=
  if v.handled && toHost then min (min v.len.toNat wLength.toNat) 64 else 0

/-- How many bytes TRN_EP0_SETUP stores in the EP0 IN buffer (R191). -/
def setupStores (s : State) : Nat :=
  if s.bds.ep0Out.count = 8 then
    let s1 := contextReset (latchSetup s)
    replyBytes (setupToHost s1.setup) (dispatchRequest s1.setup s1.devRec) (setupLength s1.setup)
  else 0

/-- How many bytes TRN_EP0_IN stores in the EP0 IN buffer (R198). -/
def ep0InStores (s : State) : Nat := if s.stage = 2 then min s.remain.toNat 64 else 0

/-- How many bytes TRN stores in the EP0 IN buffer (R291, R292). -/
def trnStores (s : State) : Nat :=
  if s.devstate < 3 then 0
  else if s.ustat &&& 0x7F = 0x40 then setupStores s
  else if s.ustat &&& 0x7F = 0x30 then ep0InStores s
  else 0

/-- A token for this address and endpoint takes effect (R341). -/
def served (s : State) (a : BitVec 7) (ep : Fin 3) : Prop :=
  s.moden = true ∧ a = s.addr ∧ s.epen.getLsbD ep.val = true ∧ s.uir.getLsbD 3 = false

/-! ## A control read, as the host sees it -/

/-- The events of `n` IN tokens on EP0, a pump step following each. -/
def controlRead : Nat → State → List (Option Event)
  | 0, _ => []
  | n + 1, s =>
    let s1 := sieIn true s.addr 0 s
    match pumpStep s1 with
    | .next s2 => s1.event :: controlRead n s2
    | .fault _ => [s1.event]
    | .refused _ => [s1.event]

/-- The events the chunk law gives a response `b` whose first packet has toggle `d` (R207). -/
def chunkEvents : Nat → Bool → List Byte → List (Option Event)
  | 0, _, _ => []
  | n + 1, d, b => some (.data d (b.take 64)) :: chunkEvents n (!d) (b.drop 64)

end Sys2Proof.Safety
end

