-- ==== Sys2Proof/Certificates/Slice0/Obligations.lean ====
section
/-! DEFINITION. The statements for the provers, from the numbered rules of the spec: encodings, what a step runs, what
every instruction leaves, frames, the environment's moves, the invariant and what follows from it. -/

open Sys2Proof Sys2Proof.Machine Sys2Proof.Safety

/-! ## Encodings -/

/-- Decoding the word of any well-formed instruction gives the instruction back, every operand at every value its field
admits. -/
def Obligations.DecodeOfEncode : Prop :=
  ∀ i : Instr, i.wf = true → decode (encode i) = .ok i

/-- Where a word has one meaning, encoding what it decodes to gives the word back: SETUP, CMD and BDOP words whole, a
USTAT word without its bit 7. -/
def Obligations.EncodeOfDecode : Prop :=
  (∀ packet i, decodeSetup packet = .ok i → encode i = .setup packet)
  ∧ (∀ c data i, decodeCmd c data = .ok i → encode i = .cmd c data)
  ∧ (∀ w i, decodeBdop w = .ok i → encode i = .bdop w)
  ∧ (∀ u i, decodeUstat u = .ok i → encode i = .ustat (u &&& 0x7F))

/-- Words written out from the spec's tables decode to what the spec says they are: R191's and R236's Setup packets,
R322's, R324's and R326's command words, ARM(1, 18, 1), DRAIN(2, 3) and RECLAIM(2) by R116, three views of R281 and two
latch values of R112. -/
def Obligations.WordsOfTheSpecDecode : Prop :=
  decode (.setup 0x0040000001000680) = .ok (.getDescriptor 0x0100 0x0000 0x0040)
  ∧ decode (.setup 0x0002008100000082) = .ok (.getStatusEp 0x0000 0x0081 0x0002)
  ∧ decode (.cmd 0x00020101 [0x48, 0x65]) = .ok (.bulkWrite 1 [0x48, 0x65])
  ∧ decode (.cmd 0x00010202 []) = .ok (.bulkRead 2 1)
  ∧ decode (.cmd 0x00000003 []) = .ok .status
  ∧ decode (.bdop 0x1225) = .ok (.arm 1 18 true)
  ∧ decode (.bdop 0x030A) = .ok (.drain 2 3)
  ∧ decode (.bdop 0x000B) = .ok (.reclaim 2)
  ∧ decode (.pumpin 0x5400) = .ok .detach
  ∧ decode (.pumpin 0x0100) = .ok .attach
  ∧ decode (.pumpin 0x3508) = .ok .trn
  ∧ decode (.ustat 0x40) = .ok .trnEp0Setup
  ∧ decode (.ustat 0x31) = .ok .trnEp1In

/-- R231, R232: a packet of a type other than standard, and a standard packet whose low 16 bits are none of the thirteen
rows, decodes to no request and is unhandled whatever its other fields and the device record hold: the record is unchanged
and no endpoint action follows. That the Setup handler then stalls EP0 is a clause of SetupHandlerCompletes. -/
def Obligations.RequestsOutsideTheTableAreUnhandled : Prop :=
  ∀ (packet : BitVec 64) (d : DevRec),
    (packet.extractLsb' 5 2 ≠ 0
      ∨ packet.extractLsb' 0 16 ∉ ([0x0080, 0x0081, 0x0082, 0x0100, 0x0102, 0x0300, 0x0302, 0x0500, 0x0680, 0x0880,
          0x0900, 0x0A81, 0x0B01] : List (BitVec 16))) →
    (∃ e, decodeSetup packet = .error e)
      ∧ (dispatchRequest packet d).handled = false ∧ (dispatchRequest packet d).devRec = d
      ∧ (dispatchRequest packet d).act = .none

/-- R321, R375: a command word with a reserved opcode or a nonzero must-be-0 field, an endpoint other than 1 or 2, or a
data operand of the wrong length, answers `0x80000000` with no data and changes nothing else. The answer stands in `resp`
(assumption log 2). -/
def Obligations.RefusedCommandsChangeNothing : Prop :=
  ∀ (c : BitVec 32) (data : List Byte) (s : State),
    ((c.extractLsb' 0 8 ≠ 1#8 ∧ c.extractLsb' 0 8 ≠ 2#8 ∧ c.extractLsb' 0 8 ≠ 3#8)
      ∨ c.extractLsb' 12 4 ≠ 0#4 ∨ c.extractLsb' 24 8 ≠ 0#8
      ∨ (c.extractLsb' 0 8 = 3#8 ∧ (c.extractLsb' 8 4 ≠ 0#4 ∨ c.extractLsb' 16 8 ≠ 0#8))
      ∨ (c.extractLsb' 0 8 ≠ 3#8 ∧ c.extractLsb' 8 4 ≠ 1#4 ∧ c.extractLsb' 8 4 ≠ 2#4)
      ∨ (c.extractLsb' 0 8 = 1#8 ∧ data.length ≠ (c.extractLsb' 16 8).toNat)
      ∨ (c.extractLsb' 0 8 ≠ 1#8 ∧ data.length ≠ 0)) →
    commandStep c data s = .next { s with resp := some { r := 0x80000000, q := [] } }

/-- R169: a word of the BD-operation bus with `op = 00`, `bd >= 6` or a nonzero must-be-0 field faults, and no other
word does: every other word decodes. That a word can stand on the bus in `bdBus` is the model's (assumption log 3). -/
def Obligations.ReservedBusWordsFault : Prop :=
  ∀ (w : BitVec 16) (s : State),
    if w.extractLsb' 0 2 = 0#2 ∨ 6 ≤ (w.extractLsb' 2 3).toNat ∨ w.extractLsb' 6 2 ≠ 0#2
        ∨ (w.extractLsb' 0 2 ≠ 1#2 ∧ w.getLsbD 5 = true) ∨ (w.extractLsb' 0 2 = 3#2 ∧ w.extractLsb' 8 8 ≠ 0#8) then
      step { s with bdBus := some w } = .fault .badBdop
    else ∃ i, decodeBdop w = .ok i

/-! ## What a step runs -/

/-- A step runs the decoded instruction: the word on the bus, else the command that is the oldest line of the agenda, else
the pump step, which is also the step when the agenda is empty. The bus or the line is consumed before it runs. The agenda
and the bus register are the model's way to choose the agent (assumption log 1 and 3). -/
def Obligations.StepRunsTheDecodedWord : Prop :=
  (∀ s w i, s.bdBus = some w → decodeBdop w = .ok i → step s = exec i { s with bdBus := none })
  ∧ (∀ s c data rest i, s.bdBus = none → s.agenda = .cmd c data :: rest → decodeCmd c data = .ok i →
      step s = exec i { s with agenda := rest })
  ∧ (∀ s l rest, s.bdBus = none → s.agenda = l :: rest → step s = lineStep l { s with agenda := rest })
  ∧ (∀ s, lineStep .pump s = pumpStep s)
  ∧ (∀ s, s.bdBus = none → s.agenda = [] → step s = pumpStep s)

/-- R281: a pump step runs the first branch of the fixed order whose test holds, and then the branches after it on the
state that one left; R280: with no branch taken it changes nothing. That a view "decodes to" this first branch is the
model's reading of the PUMPIN port (assumption log 22). -/
def Obligations.PumpRunsTheDecodedBranch : Prop :=
  (∀ s i, s.devOk = true → decodePumpin s.view = .ok i →
    ∃ before m v after, branchRows = before ++ (m, v, i) :: after ∧ s.view &&& m = v
      ∧ (∀ row ∈ before, s.view &&& row.1 ≠ row.2.1)
      ∧ pumpStep s = Result.andThen (exec i s) (runBranches after))
  ∧ (∀ s e, s.devOk = true → decodePumpin s.view = .error e → pumpStep s = .next s)

/-- R291, R292, R294: from Default on, TRN runs the instruction the latch decodes to and then clears `UIR.TRN`; below
Default, and for a latch value of no row, it only clears `UIR.TRN`. -/
def Obligations.TrnRunsTheLatchedRow : Prop :=
  ∀ s : State, s.devstate ≤ 5 →
    (3 ≤ s.devstate → ∀ i, decodeUstat s.ustat = .ok i →
      exec .trn s = Result.andThen (exec i s) fun t => .next { t with uir := t.uir &&& 0xF7 })
    ∧ (s.devstate < 3 → exec .trn s = .next { s with uir := s.uir &&& 0xF7 })
    ∧ (∀ e, decodeUstat s.ustat = .error e → exec .trn s = .next { s with uir := s.uir &&& 0xF7 })

/-- R191, R208: when the packet has 8 bytes and decodes to a request, the Setup handler runs that request on the state
whose latch holds the packet and whose context is already reset. -/
def Obligations.SetupRunsTheDecodedRequest : Prop :=
  ∀ (s : State) (i : Instr), s.bds.ep0Out.count = 8 → decodeSetup (latchSetup s).setup = .ok i →
    exec .trnEp0Setup s = exec i (contextReset (latchSetup s))

/-! ## Reset -/

/-- R63: the power-on value of every register, and buffer RAM of free draws. The last clause, that a read answers the next
draws of `Config.freeByte` and counts them, is the model's form of R84's free draw (assumption log 5). -/
def Obligations.ResetValues : Prop :=
  let s := State.reset
  s.bds.ep0Out = { own := .sw, dts := false, stall := false, count := 0, addr := 0x00 }
  ∧ s.bds.ep0In = { own := .sw, dts := false, stall := false, count := 0, addr := 0x40 }
  ∧ s.bds.ep1Out = { own := .sw, dts := false, stall := false, count := 0, addr := 0x80 }
  ∧ s.bds.ep1In = { own := .sw, dts := false, stall := false, count := 0, addr := 0x88 }
  ∧ s.bds.ep2Out = { own := .sw, dts := false, stall := false, count := 0, addr := 0x90 }
  ∧ s.bds.ep2In = { own := .sw, dts := false, stall := false, count := 0, addr := 0x98 }
  ∧ s.uir = 0 ∧ s.ustat = 0 ∧ s.epen = 0 ∧ s.addr = 0 ∧ s.ephalt = 0 ∧ s.moden = false
  ∧ s.stage = 0 ∧ s.remain = 0 ∧ s.srcT = 0 ∧ s.srcOff = 0 ∧ s.handled = false ∧ s.rxtot = 0 ∧ s.setup = 0
  ∧ s.respBuf0 = 0 ∧ s.respBuf1 = 0
  ∧ s.devstate = 0 ∧ s.susp = false ∧ s.rwu = false ∧ s.selfpwr = false ∧ s.apend = false
  ∧ s.config = 0 ∧ s.paddr = 0
  ∧ (∀ a, s.byteAt a = none)
  ∧ (∀ a n, s.bufRead a n = ((List.range' s.draws n).map Config.freeByte, s.draws + n))

/-! ## Requests -/

/-- R234, R235, R236, R265, R266: the requests that answer from `RESPBUF`. In this and the next statements about requests
the request runs after the context reset, with `wLength` and the direction taken from its own operands and row, which is the
model's cut of the Setup handler (assumption log 10); that bits 0 and 1 of `EPHALT` read 0 is log 18. -/
def Obligations.StatusRequestsAnswer : Prop :=
  ∀ (s : State) (v x l : BitVec 16), ep0Owned s → s.devstate ≤ 5 →
    (let b0 : Byte := (if s.selfpwr then 1 else 0) + (if s.rwu then 2 else 0);
      exec (.getStatusDev v x l) s = .next (answered { s with respBuf0 := b0, respBuf1 := 0 } 0 [b0, 0] l))
    ∧ exec (.getStatusIf v 0 l) s = .next (answered { s with respBuf0 := 0, respBuf1 := 0 } 0 [0, 0] l)
    ∧ (∀ (ep : Fin 3) (dir : Fin 2),
        let b0 : Byte := if ep ≠ 0 ∧ s.ephalt.getLsbD (2 * ep.val + dir.val) = true then 1 else 0
        exec (.getStatusEp v (BitVec.ofNat 16 (ep.val + 0x80 * dir.val)) l) s
          = .next (answered { s with respBuf0 := b0, respBuf1 := 0 } 0 [b0, 0] l))
    ∧ exec (.getConfiguration v x l) s
        = .next (answered { s with respBuf0 := s.config, respBuf1 := 0 } 0 [s.config] l)
    ∧ exec (.getInterface v 0 l) s = .next (answered { s with respBuf0 := 0, respBuf1 := 0 } 0 [0] l)

/-- R258 to R261: the descriptors, each answered from its table with the table's own length, clamped to `wLength`
(assumption log 6 and 10). -/
def Obligations.DescriptorRequestsAnswer : Prop :=
  ∀ (s : State) (x l : BitVec 16) (ix : Byte), ep0Owned s → s.devstate ≤ 5 →
    exec (.getDescriptor (0x01#8 ++ ix) x l) s = .next (answered s 1 devDesc l)
    ∧ exec (.getDescriptor 0x0200 x l) s = .next (answered s 2 cfgDesc l)
    ∧ exec (.getDescriptor 0x0300 x l) s = .next (answered s 3 [0x04, 0x03, 0x09, 0x04] l)
    ∧ exec (.getDescriptor 0x0301 x l) s = .next (answered s 4 str1Desc l)
    ∧ exec (.getDescriptor 0x0302 x l) s = .next (answered s 5 str2Desc l)

/-- R240, R241, R250, R251, R267: the device feature writes `RWU`, the halt feature of a bulk endpoint writes its bit of
`EPHALT`, and SET_INTERFACE of interface 0, alternate 0, writes nothing (assumption log 10 and 18). -/
def Obligations.FeatureAndInterfaceRequestsAccepted : Prop :=
  ∀ (s : State) (x l : BitVec 16), ep0Owned s → s.devstate ≤ 5 →
    exec (.setFeatureDev 1 x l) s = .next (accepted { s with rwu := true })
    ∧ exec (.clearFeatureDev 1 x l) s = .next (accepted { s with rwu := false })
    ∧ (∀ (ep : Fin 3) (dir : Fin 2), ep ≠ 0 →
        exec (.setFeatureEp 0 (BitVec.ofNat 16 (ep.val + 0x80 * dir.val)) l) s
          = .next (accepted { s with ephalt := s.ephalt ||| BitVec.twoPow 6 (2 * ep.val + dir.val) })
        ∧ exec (.clearFeatureEp 0 (BitVec.ofNat 16 (ep.val + 0x80 * dir.val)) l) s
          = .next (accepted { s with ephalt := s.ephalt &&& ~~~(BitVec.twoPow 6 (2 * ep.val + dir.val)) }))
    ∧ exec (.setInterface 0 0 l) s = .next (accepted s)

/-- R255: SET_ADDRESS records the address and leaves `ADDR` and `DEVSTATE` as they are; R203: the completion of its Status
stage applies it, address 0 leading back to Default (assumption log 10). -/
def Obligations.SetAddressIsDeferred : Prop :=
  ∀ s : State,
    (∀ v x l : BitVec 16, ep0Owned s → s.devstate < 5 → v.toNat ≤ 127 →
      exec (.setAddress v x l) s = .next (accepted { s with paddr := v.setWidth 7, apend := true }))
    ∧ (s.stage = 1 → s.apend = true →
        exec .trnEp0In s = .next { s with
          addr := s.paddr, devstate := if s.paddr = 0 then 3 else 4, apend := false, stage := 0 })

/-- R262, R263, R264: SET_CONFIGURATION returns the bulk descriptors to the block, clears the halts, and for a nonzero
value arms both OUT descriptors at DATA0 and enables the bulk endpoints (assumption log 10 and 18). -/
def Obligations.SetConfigurationReinitialises : Prop :=
  ∀ (s : State) (v x l : BitVec 16), ep0Owned s → s.devstate ≤ 5 →
    exec (.setConfiguration v x l) s = .next (accepted
      (if v.extractLsb' 0 8 = 0#8 then
        { s with
          config := 0, devstate := 4, epen := s.epen &&& 0b001, ephalt := 0,
          bds := { s.bds with
            ep1Out := returned 0x80 true, ep1In := returned 0x88 true
            ep2Out := returned 0x90 true, ep2In := returned 0x98 true } }
      else
        { s with
          config := v.extractLsb' 0 8, devstate := 5, epen := s.epen ||| 0b110, ephalt := 0,
          bds := { s.bds with
            ep1Out := { own := .hw, dts := false, stall := false, count := 7, addr := 0x80 }
            ep1In := returned 0x88 true
            ep2Out := { own := .hw, dts := false, stall := false, count := 1, addr := 0x90 }
            ep2In := returned 0x98 true } }))

/-- R193, R235, R236, R242, R250 to R252, R255, R256, R258, R266, R267: a request whose field check fails stalls EP0 in
both directions and changes no record (assumption log 10). -/
def Obligations.FailedChecksStallEp0 : Prop :=
  ∀ (s : State) (v x l : BitVec 16), ep0Owned s → s.devstate ≤ 5 →
    let badEp := x.extractLsb' 8 8 ≠ 0#8 ∨ x.extractLsb' 4 3 ≠ 0#3 ∨ 2 < (x.extractLsb' 0 4).toNat
    (x ≠ 0 → exec (.getStatusIf v x l) s = .next (stalled s))
    ∧ (badEp → exec (.getStatusEp v x l) s = .next (stalled s))
    ∧ (v ≠ 1 → exec (.clearFeatureDev v x l) s = .next (stalled s))
    ∧ (v ≠ 1 → exec (.setFeatureDev v x l) s = .next (stalled s))
    ∧ (v ≠ 0 ∨ badEp ∨ x.extractLsb' 0 4 = 0#4 → exec (.clearFeatureEp v x l) s = .next (stalled s))
    ∧ (v ≠ 0 ∨ badEp ∨ x.extractLsb' 0 4 = 0#4 → exec (.setFeatureEp v x l) s = .next (stalled s))
    ∧ (127 < v.toNat ∨ s.devstate = 5 → exec (.setAddress v x l) s = .next (stalled s))
    ∧ (v.extractLsb' 8 8 = 0#8 ∨ 3 < (v.extractLsb' 8 8).toNat
        ∨ (v.extractLsb' 8 8 = 2#8 ∧ v.extractLsb' 0 8 ≠ 0#8)
        ∨ (v.extractLsb' 8 8 = 3#8 ∧ 2 < (v.extractLsb' 0 8).toNat) →
        exec (.getDescriptor v x l) s = .next (stalled s))
    ∧ (x ≠ 0 → exec (.getInterface v x l) s = .next (stalled s))
    ∧ (x ≠ 0 ∨ v ≠ 0 → exec (.setInterface v x l) s = .next (stalled s))

/-- Frame of the thirteen requests, in every state: each record is written only by the requests R270 names for it; the
bulk descriptors only by SET_CONFIGURATION; `RESPBUF` only by those that answer from it; the source of a data stage only by
a request that starts one; and of buffer RAM only the first chunk of an answer, in the EP0 IN buffer (assumption log 10 and
21). -/
def Obligations.RequestFrame : Prop :=
  ∀ (i : Instr) (packet : BitVec 64) (s t : State), encode i = .setup packet → exec i s = .next t →
    let row := packet.extractLsb' 0 16
    let stored := replyBytes (packet.getLsbD 7) (requestVerdict i s.devRec) (packet.extractLsb' 48 16)
    t = { s with
      bds := t.bds, epen := t.epen, ephalt := t.ephalt, stage := t.stage, remain := t.remain, srcT := t.srcT,
      srcOff := t.srcOff, handled := t.handled, respBuf0 := t.respBuf0, respBuf1 := t.respBuf1,
      devstate := t.devstate, rwu := t.rwu, config := t.config, paddr := t.paddr, apend := t.apend, mem := t.mem }
    ∧ (row ≠ 0x0900#16 → t.devstate = s.devstate ∧ t.config = s.config ∧ t.epen = s.epen
        ∧ t.bds.ep1Out = s.bds.ep1Out ∧ t.bds.ep1In = s.bds.ep1In
        ∧ t.bds.ep2Out = s.bds.ep2Out ∧ t.bds.ep2In = s.bds.ep2In)
    ∧ (row ≠ 0x0900#16 → row ≠ 0x0102#16 → row ≠ 0x0302#16 → t.ephalt = s.ephalt)
    ∧ (row ≠ 0x0100#16 → row ≠ 0x0300#16 → t.rwu = s.rwu)
    ∧ (row ≠ 0x0500#16 → t.paddr = s.paddr ∧ t.apend = s.apend)
    ∧ (row ∉ ([0x0080, 0x0081, 0x0082, 0x0880, 0x0A81] : List (BitVec 16)) →
        t.respBuf0 = s.respBuf0 ∧ t.respBuf1 = s.respBuf1)
    ∧ ((requestVerdict i s.devRec).handled = false ∨ packet.getLsbD 7 = false →
        t.remain = s.remain ∧ t.srcT = s.srcT ∧ t.srcOff = s.srcOff)
    ∧ (∀ a, a < (baseOf 1).toNat ∨ (baseOf 1).toNat + stored ≤ a → t.byteAt a = s.byteAt a)

/-! ## BD operations -/

/-- R161, R162, R163: ARM gives a descriptor the block owns to the SIE with the clamped count and, when `t` is set, the
flipped toggle; on a descriptor the SIE owns it answers `(0, 0)` and changes no descriptor. The answer stands in `bdAnswer`
(assumption log 2). -/
def Obligations.ArmHandsOver : Prop :=
  ∀ (i : BdIndex) (len : Byte) (flip : Bool) (s : State),
    ((s.bd i).own = .sw →
      let n := BitVec.ofNat 8 (min len.toNat (maxPkt i))
      exec (.arm i len flip) s = .next { s with
        bds := s.bds.set i
          { own := .hw, dts := (if flip then !(s.bd i).dts else (s.bd i).dts), stall := (s.bd i).stall, count := n,
            addr := baseOf i }
        bdAnswer := some { ok := true, n := n, bytes := [] } })
    ∧ ((s.bd i).own = .hw →
      exec (.arm i len flip) s = .next { s with bdAnswer := some { ok := false, n := 0, bytes := [] } })

/-- R164, R165, R166: DRAIN answers the first `min(max, count, MAXPKT)` bytes of the buffer of a descriptor the block
owns and changes no descriptor and no byte; on a descriptor the SIE owns it answers `(0, 0)`. The answer stands in
`bdAnswer` (assumption log 2); bytes never written are free draws, whose number is counted (assumption log 5). -/
def Obligations.DrainCopiesOut : Prop :=
  ∀ (i : BdIndex) (max : Byte) (s : State),
    ((s.bd i).own = .sw →
      let n := min max.toNat (min (s.bd i).count.toNat (maxPkt i))
      exec (.drain i max) s = .next { s with
        draws := (s.bufRead (baseOf i) n).2
        bdAnswer := some { ok := true, n := BitVec.ofNat 8 n, bytes := (s.bufRead (baseOf i) n).1 } })
    ∧ ((s.bd i).own = .hw →
      exec (.drain i max) s = .next { s with bdAnswer := some { ok := false, n := 0, bytes := [] } })

/-- R167: RECLAIM gives a descriptor back to the block with its stall and count cleared and its toggle kept, and changes
nothing else, whoever owned it. It does so in every state, also where the endpoint is enabled and the precondition R168
gives its callers fails, which is the model's choice (assumption log 9). -/
def Obligations.ReclaimReturns : Prop :=
  ∀ (i : BdIndex) (s : State),
    exec (.reclaim i) s = .next { s with
      bds := s.bds.set i { own := .sw, dts := (s.bd i).dts, stall := false, count := 0, addr := baseOf i } }

/-- R172: what the block leaves alone while the SIE owns a descriptor. No instruction writes a byte of its buffer, without
exception. None writes a field of it but RECLAIM of that very descriptor and the three callers R168 gives RECLAIM: bus
reset, detach, and SET_CONFIGURATION, by itself or run by the Setup handler. The two hypotheses are what the SIE does when
it completes the transaction that is run: a request and the Setup handler find both EP0 descriptors with the block, an EP0
IN transaction finds EP0 IN with it; in every legal state with a latched transaction the TRN branch meets both, which is the
last clause. What DRAIN and BULK_READ answer then, without reading the buffer, is in DrainCopiesOut and BulkReadTakes. -/
def Obligations.BlockLeavesSieDescriptors : Prop :=
  (∀ (i : Instr) (s t : State) (j : BdIndex), (s.bd j).own = .hw →
    ((∃ packet, encode i = .setup packet) ∨ runs s i .trnEp0Setup → ep0Owned s) →
    (runs s i .trnEp0In → s.bds.ep0In.own = .sw) →
    exec i s = .next t →
    (∀ a, (baseOf j).toNat ≤ a → a < (baseOf j).toNat + maxPkt j → t.byteAt a = s.byteAt a)
    ∧ (i ≠ .reclaim j → i ≠ .urst → i ≠ .detach → (∀ v x l, i ≠ .setConfiguration v x l) →
        (runs s i .trnEp0Setup → s.bds.ep0Out.count = 8 → (latchSetup s).setup.extractLsb' 0 16 ≠ 0x0900#16) →
        t.bd j = s.bd j))
  ∧ (∀ s : State, Legal s → s.uir.getLsbD 3 = true →
      (runs s .trn .trnEp0Setup → ep0Owned s) ∧ (runs s .trn .trnEp0In → s.bds.ep0In.own = .sw))

/-! ## The command port -/

/-- R322, R323, R328: BULK_WRITE fills the IN buffer of a bulk endpoint and arms it with the next toggle, answering the
number of bytes taken; outside Configured, and on a descriptor the SIE owns, it answers 0 and changes nothing. The answer
stands in `resp` (assumption log 2). -/
def Obligations.BulkWriteQueues : Prop :=
  ∀ (e : Fin 3) (data : List Byte) (s : State), e ≠ 0 → s.devstate ≤ 5 →
    let i := bdOf e .inward
    let n := min data.length (maxPkt i)
    (s.devstate = 5 → (s.bd i).own = .sw →
      exec (.bulkWrite (BitVec.ofNat 4 e.val) data) s = .next { s with
        mem := s.mem.write (baseOf i) (data.take n)
        bds := s.bds.set i (handedOver (s.bd i) (BitVec.ofNat 8 n) (baseOf i))
        resp := some { r := BitVec.ofNat 32 n, q := [] } })
    ∧ (s.devstate ≠ 5 ∨ (s.bd i).own = .hw →
      exec (.bulkWrite (BitVec.ofNat 4 e.val) data) s = .next { s with resp := some { r := 0, q := [] } })

/-- R324, R325, R329, R330: BULK_READ answers the first `min(len, count)` bytes of a received packet and arms the
descriptor again for a full packet, whether or not it took all; outside Configured, and on a descriptor the SIE owns, it
answers 0 and changes nothing. The answer stands in `resp` (assumption log 2 and 5). -/
def Obligations.BulkReadTakes : Prop :=
  ∀ (e : Fin 3) (len : Byte) (s : State), e ≠ 0 → s.devstate ≤ 5 →
    let i := bdOf e .outward
    let n := min len.toNat (min (s.bd i).count.toNat (maxPkt i))
    (s.devstate = 5 → (s.bd i).own = .sw →
      exec (.bulkRead (BitVec.ofNat 4 e.val) len) s = .next { s with
        draws := (s.bufRead (baseOf i) n).2
        bds := s.bds.set i (handedOver (s.bd i) (BitVec.ofNat 8 (maxPkt i)) (baseOf i))
        resp := some { r := BitVec.ofNat 32 n, q := (s.bufRead (baseOf i) n).1 } })
    ∧ (s.devstate ≠ 5 ∨ (s.bd i).own = .hw →
      exec (.bulkRead (BitVec.ofNat 4 e.val) len) s = .next { s with resp := some { r := 0, q := [] } })

/-- R326: STATUS answers the device record, the address and the stage in one word and changes nothing but `resp`, where the
answer stands (assumption log 2). -/
def Obligations.StatusReports : Prop :=
  ∀ s : State, s.devstate ≤ 5 → s.stage ≤ 2 →
    let bit (b : Bool) : BitVec 32 := (BitVec.ofBool b).setWidth 32
    exec .status s = .next { s with
      resp := some
        { r := s.devstate.setWidth 32 ||| bit s.susp <<< 3 ||| bit s.rwu <<< 4 ||| bit s.selfpwr <<< 5
            ||| bit s.handled <<< 6 ||| s.addr.setWidth 32 <<< 8 ||| bit s.apend <<< 15
            ||| s.config.setWidth 32 <<< 16 ||| s.stage.setWidth 32 <<< 24
          q := [] } }

/-- Frame of the commands and the BD operations, in every state: each writes only the descriptor it names, its answer, the
count of free draws, and, for BULK_WRITE, the bytes it stores from the base of its IN buffer on. -/
def Obligations.PortFrame : Prop :=
  (∀ bd len flip s t, exec (.arm bd len flip) s = .next t →
    t = { s with bds := t.bds, bdAnswer := t.bdAnswer } ∧ ∀ j, j ≠ bd → t.bd j = s.bd j)
  ∧ (∀ bd max s t, exec (.drain bd max) s = .next t → t = { s with draws := t.draws, bdAnswer := t.bdAnswer })
  ∧ (∀ bd s t, exec (.reclaim bd) s = .next t → t = { s with bds := t.bds } ∧ ∀ j, j ≠ bd → t.bd j = s.bd j)
  ∧ (∀ s t, exec .status s = .next t → t = { s with resp := t.resp })
  ∧ (∀ ep len s t, exec (.bulkRead ep len) s = .next t →
    t = { s with bds := t.bds, draws := t.draws, resp := t.resp }
    ∧ ∀ j, (∀ e, bulkEp ep = some e → j ≠ bdOf e .outward) → t.bd j = s.bd j)
  ∧ (∀ ep data s t, exec (.bulkWrite ep data) s = .next t →
    t = { s with bds := t.bds, mem := t.mem, resp := t.resp }
    ∧ ∀ e, bulkEp ep = some e →
      (∀ j, j ≠ bdOf e .inward → t.bd j = s.bd j)
      ∧ ∀ a, a < (baseOf (bdOf e .inward)).toNat
          ∨ (baseOf (bdOf e .inward)).toNat + min data.length (maxPkt (bdOf e .inward)) ≤ a → t.byteAt a = s.byteAt a)

/-! ## Branches of a pump step -/

/-- R282, R283: ATTACH enables the module and enters Attached, POWERED enters Powered, and nothing else changes; one pump
step with bus power takes a detached device to Attached whatever `SE0` is, and on to Powered when there is no single-ended
zero. -/
def Obligations.AttachEnablesAndPowers : Prop :=
  (∀ s, exec .attach s = .next { s with moden := true, devstate := 1 })
  ∧ (∀ s, exec .powered s = .next { s with devstate := 2 })
  ∧ (∀ s : State, s.devstate = 0 → s.vbus = true → s.moden = false → s.uir &&& 0x7F = 0 →
      pumpStep s = .next { s with moden := true, devstate := if s.se0 then 1 else 2 })

/-- R285, R287 to R290: the bus events. ACTV and IDLE write `SUSP`; each of the five clears its own bit of `UIR`, leaves
the others as they are and changes nothing else. -/
def Obligations.BusEventsClearTheirFlag : Prop :=
  ∀ s : State,
    exec .actv s = .next { s with susp := false, uir := s.uir &&& 0xFB }
    ∧ exec .idle s = .next { s with susp := true, uir := s.uir &&& 0xEF }
    ∧ exec .sof s = .next { s with uir := s.uir &&& 0xBF }
    ∧ exec .stall s = .next { s with uir := s.uir &&& 0xDF }
    ∧ exec .uerr s = .next { s with uir := s.uir &&& 0xFD }

/-- R286, R391: in every state but Detached a bus reset clears every record and the context, returns every descriptor with
toggle 0, arms EP0 OUT at DATA1 and enables EP0 alone; in Detached it only clears its flag. -/
def Obligations.BusResetReinitialises : Prop :=
  ∀ s : State, s.devstate ≤ 5 →
    exec .urst s = .next
      (if s.devstate = 0 then { s with uir := s.uir &&& 0xFE }
      else
        { cleared s with
          devstate := 3, uir := s.uir &&& 0xF6, epen := 0b001
          bds := { (cleared s).bds with
            ep0Out := { own := .hw, dts := true, stall := false, count := 64, addr := 0x00 } } })

/-- R284, R392: DETACH clears every record, the context, the module enable and every flag, and returns every descriptor;
the Setup latch, `RESPBUF`, `USTAT` and buffer RAM are left as they are. A pump step that finds the module enabled without
bus power does this and nothing else, whatever the state and the other flags. -/
def Obligations.DetachReinitialises : Prop :=
  ∀ s : State,
    exec .detach s = .next { cleared s with devstate := 0, moden := false, uir := 0 }
    ∧ (s.devstate ≤ 5 → s.vbus = false → s.moden = true →
        pumpStep s = .next { cleared s with devstate := 0, moden := false, uir := 0 })

/-- Every pump step leaves `UIR[6:0]` clear: R281 tests every branch in every step, each clears its flag, and no branch
sets one (R40). Nothing is said of bit 7, reserved (assumption log 23). -/
def Obligations.PumpStepClearsEveryFlag : Prop :=
  ∀ s t : State, pumpStep s = .next t → t.uir &&& 0x7F = 0

/-! ## Transactions -/

/-- R293: a completed bulk transaction only clears `UIR.TRN`, whether its row is run by itself or by the TRN branch, which
clears the flag again (assumption log 11). -/
def Obligations.BulkTransactionsOnlyClearTrn : Prop :=
  ∀ (s : State) (i : Instr), i = .trnEp1Out ∨ i = .trnEp2Out ∨ i = .trnEp1In ∨ i = .trnEp2In →
    exec i s = .next { s with uir := s.uir &&& 0xF7 }
    ∧ (encode i = .ustat (s.ustat &&& 0x7F) → s.devstate ≤ 5 →
        exec .trn s = .next { s with uir := s.uir &&& 0xF7 })

/-- R200, R201, R206: an EP0 OUT transaction re-arms EP0 OUT for 64 bytes with the next toggle in every stage; it ends a
Data-In stage, and counts its bytes in a Data-Out stage, which it does not end. -/
def Obligations.Ep0OutByStage : Prop :=
  ∀ s : State, s.bds.ep0Out.own = .sw →
    let armed := { s.bds with ep0Out := handedOver s.bds.ep0Out 64 0x00 }
    (s.stage = 0 → exec .trnEp0Out s = .next { s with bds := armed })
    ∧ (s.stage = 1 → exec .trnEp0Out s = .next { s with
        bds := armed, rxtot := s.rxtot + s.bds.ep0Out.count.setWidth 16 })
    ∧ (s.stage = 2 → exec .trnEp0Out s = .next { s with bds := armed, stage := 0 })

/-- R198, R199, R202, R203, R204: an EP0 IN transaction does nothing in Setup; in DataOut it ends the Status stage and
applies the pending address, if there is one; in DataIn it sends the next chunk of the table or, when none remains, ends the
stage. -/
def Obligations.Ep0InByStage : Prop :=
  ∀ s : State,
    (s.stage = 0 → exec .trnEp0In s = .next s)
    ∧ (s.stage = 1 → exec .trnEp0In s = .next
        (if s.apend then
          { s with addr := s.paddr, devstate := if s.paddr = 0 then 3 else 4, apend := false, stage := 0 }
        else { s with stage := 0 }))
    ∧ (s.stage = 2 → s.remain = 0 → exec .trnEp0In s = .next { s with stage := 0 })
    ∧ (∀ b, s.stage = 2 → s.remain ≠ 0 → s.bds.ep0In.own = .sw → s.table s.srcT = some b →
        s.srcOff.toNat + s.remain.toNat ≤ b.length →
        let n := min s.remain.toNat 64
        exec .trnEp0In s = .next { s with
          mem := s.mem.write 0x40 ((b.drop s.srcOff.toNat).take n)
          srcOff := s.srcOff + BitVec.ofNat 8 n, remain := s.remain - BitVec.ofNat 16 n
          bds := { s.bds with ep0In := handedOver s.bds.ep0In (BitVec.ofNat 8 n) 0x40 } })

/-- R191, R192, R193: whenever the block owns both EP0 descriptors, the Setup handler completes. It latches the packet
exactly when its count is 8; the received total of the old transfer is gone, and both EP0 descriptors are with the SIE at
DATA1, OUT for 64 bytes. A request left unhandled leaves the Setup stage, nothing to send, no pending address and both
directions stalled; a handled one leaves neither stalled and enters the stage of its direction. On a packet that decodes to
no request, and on a count other than 8, the handler stalls EP0 in both directions, and beside the reset of the context and
the latched packet nothing else changes, no record of the device either. -/
def Obligations.SetupHandlerCompletes : Prop :=
  ∀ s : State, ep0Owned s →
    (s.devstate ≤ 5 →
      ∃ t, exec .trnEp0Setup s = .next t
        ∧ t.setup = (if s.bds.ep0Out.count = 8 then le64 (s.bufRead 0x00 8).1 else s.setup)
        ∧ t.rxtot = 0 ∧ t.bds.ep0Out.own = .hw ∧ t.bds.ep0Out.dts = true ∧ t.bds.ep0Out.count = 64
        ∧ t.bds.ep0In.own = .hw ∧ t.bds.ep0In.dts = true
        ∧ (t.bds.ep0Out.stall = !t.handled) ∧ (t.bds.ep0In.stall = !t.handled)
        ∧ (t.handled = false → t.stage = 0 ∧ t.remain = 0 ∧ t.apend = false ∧ t.bds.ep0In.count = 0)
        ∧ (t.handled = true → t.stage = if t.setup.getLsbD 7 then 2 else 1))
    ∧ (∀ e, s.devstate ≤ 5 → s.bds.ep0Out.count = 8 → decodeSetup (latchSetup s).setup = .error e →
        exec .trnEp0Setup s = .next (stalled (contextReset (latchSetup s))))
    ∧ (s.bds.ep0Out.count ≠ 8 → exec .trnEp0Setup s = .next (stalled (contextReset s)))

/-- R205: nothing of the interrupted stage carries over. Whatever the context, the pending flag and the stall and toggle of
both EP0 descriptors held, the Setup handler leaves the same state. That it does so also where the SIE owns an EP0
descriptor, which no run reaches, rests on the model's literal reading of the pseudocode (assumption log 19). -/
def Obligations.SetupForgetsTheOldTransfer : Prop :=
  ∀ (s : State) (stage : BitVec 2) (remain rxtot : BitVec 16) (srcT : BitVec 3) (srcOff : BitVec 8)
    (handled apend d0 d1 st0 st1 : Bool),
    exec .trnEp0Setup { s with
      stage := stage, remain := remain, rxtot := rxtot, srcT := srcT, srcOff := srcOff, handled := handled
      apend := apend
      bds := { s.bds with
        ep0Out := { s.bds.ep0Out with dts := d0, stall := st0 }
        ep0In := { s.bds.ep0In with dts := d1, stall := st1 } } } = exec .trnEp0Setup s

/-- In every legal state from Default on that has a latched transaction, the TRN branch completes, frees the latch and
leaves EP0 OUT with the SIE, so that a SETUP can follow. -/
def Obligations.TrnCompletesInLegalStates : Prop :=
  ∀ s : State, Legal s → 3 ≤ s.devstate → s.uir.getLsbD 3 = true →
    ∃ t, exec .trn s = .next t ∧ t.uir = s.uir &&& 0xF7 ∧ t.bds.ep0Out.own = .hw ∧ t.ustat = s.ustat

/-- Frame of TRN and the EP0 transactions, in every state: the inputs, the module enable, `USTAT`, the suspended and
self-powered flags, the agenda, the bus and the answers are unchanged; EP0 OUT writes no byte; and the others store only the
chunk they arm, in the EP0 IN buffer. -/
def Obligations.TransactionFrame : Prop :=
  ∀ s t : State,
    (exec .trnEp0Out s = .next t → t = { s with bds := t.bds, stage := t.stage, rxtot := t.rxtot }
      ∧ ∀ j, j ≠ 0 → t.bd j = s.bd j)
    ∧ (exec .trnEp0In s = .next t →
        t = { s with
          bds := t.bds, stage := t.stage, remain := t.remain, srcOff := t.srcOff, addr := t.addr
          devstate := t.devstate, apend := t.apend, mem := t.mem }
        ∧ (∀ j, j ≠ 1 → t.bd j = s.bd j)
        ∧ ∀ a, a < (baseOf 1).toNat ∨ (baseOf 1).toNat + ep0InStores s ≤ a → t.byteAt a = s.byteAt a)
    ∧ (exec .trnEp0Setup s = .next t →
        t.uir = s.uir ∧ t.ustat = s.ustat ∧ t.addr = s.addr ∧ t.moden = s.moden ∧ t.vbus = s.vbus ∧ t.se0 = s.se0
        ∧ t.susp = s.susp ∧ t.selfpwr = s.selfpwr ∧ t.agenda = s.agenda ∧ t.bdBus = s.bdBus ∧ t.resp = s.resp
        ∧ t.event = s.event ∧ t.bdAnswer = s.bdAnswer
        ∧ ∀ a, a < (baseOf 1).toNat ∨ (baseOf 1).toNat + setupStores s ≤ a → t.byteAt a = s.byteAt a)
    ∧ (exec .trn s = .next t →
        t.uir = s.uir &&& 0xF7 ∧ t.ustat = s.ustat ∧ t.moden = s.moden ∧ t.vbus = s.vbus ∧ t.se0 = s.se0
        ∧ t.susp = s.susp ∧ t.selfpwr = s.selfpwr ∧ t.agenda = s.agenda ∧ t.bdBus = s.bdBus ∧ t.resp = s.resp
        ∧ t.event = s.event ∧ t.bdAnswer = s.bdAnswer
        ∧ ∀ a, a < (baseOf 1).toNat ∨ (baseOf 1).toNat + trnStores s ≤ a → t.byteAt a = s.byteAt a)

/-! ## Every instruction -/

/-- R40, R41, R42, R43, R45, R46, R57, over all 36 instructions and every state: none sets a bit of `UIR`, writes `USTAT`,
an input or the self-powered flag other than to 0; `ADDR` changes only at the end of SET_ADDRESS, by bus reset or by detach;
`MODEN` only by attach and detach; `EPEN` only by bus reset, detach and SET_CONFIGURATION. -/
def Obligations.RegistersKeepTheirWriters : Prop :=
  ∀ (i : Instr) (s t : State), exec i s = .next t →
    t.uir &&& ~~~s.uir = 0 ∧ t.ustat = s.ustat ∧ t.vbus = s.vbus ∧ t.se0 = s.se0
    ∧ (s.selfpwr = false → t.selfpwr = false)
    ∧ (t.addr ≠ s.addr → i = .urst ∨ i = .detach
        ∨ ((i = .trnEp0In ∨ (i = .trn ∧ s.ustat &&& 0x7F = 0x30)) ∧ s.stage = 1 ∧ s.apend = true
            ∧ t.addr = s.paddr))
    ∧ (t.moden ≠ s.moden → i = .attach ∨ i = .detach)
    ∧ (t.epen ≠ s.epen → i = .urst ∨ i = .detach ∨ (∃ v x l, i = .setConfiguration v x l)
        ∨ ((i = .trnEp0Setup ∨ (i = .trn ∧ s.ustat &&& 0x7F = 0x40)) ∧ s.bds.ep0Out.count = 8
            ∧ (latchSetup s).setup.extractLsb' 0 16 = 0x0900#16))

/-- R295: the edges of the device state, each with the state it leaves and the one it enters; no other edge exists. For every
legal state, a branch of the pump run when its own test holds, and a request or a transaction run from Default on, as the
Setup handler and the TRN branch run them. The Status IN of SET_ADDRESS leads from Default or Address to Address, or for
address 0 to Default; SET_CONFIGURATION, by itself or run by the Setup handler, from Default, Address or Configured to
Address for the value 0 and else to Configured. No command and no BD operation is among the edges, and no move of the
environment changes the device state, in any state whatever. -/
def Obligations.DeviceStateEdges : Prop :=
  (∀ (i : Instr) (s t : State), Legal s →
    (∀ row ∈ branchRows, row.2.2 = i → s.view &&& row.1 = row.2.1) →
    ((∃ packet, encode i = .setup packet) ∨ (∃ u, encode i = .ustat u) → 3 ≤ s.devstate) →
    exec i s = .next t → t.devstate ≠ s.devstate →
    (i = .attach ∧ s.devstate = 0 ∧ t.devstate = 1)
    ∨ (i = .powered ∧ s.devstate = 1 ∧ t.devstate = 2)
    ∨ (i = .urst ∧ s.devstate ≠ 0 ∧ t.devstate = 3)
    ∨ (i = .detach ∧ s.devstate ≠ 0 ∧ t.devstate = 0)
    ∨ (runs s i .trnEp0In ∧ (s.devstate = 3 ∨ s.devstate = 4) ∧ s.stage = 1 ∧ s.apend = true
        ∧ t.devstate = if s.paddr = 0 then 3 else 4)
    ∨ ((s.devstate = 3 ∨ s.devstate = 4 ∨ s.devstate = 5)
        ∧ ∃ v x l,
          (i = .setConfiguration v x l
            ∨ (runs s i .trnEp0Setup ∧ s.bds.ep0Out.count = 8
              ∧ decodeSetup (latchSetup s).setup = .ok (.setConfiguration v x l)))
          ∧ t.devstate = if v.extractLsb' 0 8 = 0#8 then 4 else 5))
  ∧ (∀ (l : Line) (s t : State), l ≠ .pump → lineStep l s = .next t → t.devstate = s.devstate)

/-- R296, R389: suspend is orthogonal. Every instruction but STATUS does the same whatever `SUSP` holds: with the flag
changed it completes just when it did, in a state that differs in that flag alone. -/
def Obligations.SuspendIsOrthogonal : Prop :=
  ∀ (i : Instr) (s t : State) (b : Bool), i ≠ .status → exec i s = .next t →
    ∃ u, exec i { s with susp := b } = .next u ∧ u = { t with susp := u.susp }

/-- R376: a reserved `STAGE` faults at whatever reads the stage, a reserved `DEVSTATE` at whatever reads the device state,
and a chunk that would pass its table faults; each in every state. The readers are those assumption log 8 names: of the
stage STATUS and the two EP0 transactions, by themselves or from the TRN branch; of the device state the pump step, TRN,
URST, STATUS, the bulk commands on their two endpoints, the thirteen requests, and the Setup handler with a packet of 8
bytes, which dispatches one. -/
def Obligations.ReservedValuesFault : Prop :=
  ∀ s : State,
    (s.stage = 3 → s.devstate ≤ 5 → exec .status s = .fault .badStage)
    ∧ (s.stage = 3 → exec .trnEp0Out s = .fault .badStage ∧ exec .trnEp0In s = .fault .badStage)
    ∧ (s.stage = 3 → s.devstate ≤ 5 → runs s .trn .trnEp0Out ∨ runs s .trn .trnEp0In →
        exec .trn s = .fault .badStage)
    ∧ (6 ≤ s.devstate → pumpStep s = .fault .badDevState ∧ exec .status s = .fault .badDevState
        ∧ exec .trn s = .fault .badDevState ∧ exec .urst s = .fault .badDevState
        ∧ (∀ ep : Fin 3, ep ≠ 0 →
            (∀ data, exec (.bulkWrite (BitVec.ofNat 4 ep.val) data) s = .fault .badDevState)
            ∧ ∀ len, exec (.bulkRead (BitVec.ofNat 4 ep.val) len) s = .fault .badDevState)
        ∧ (∀ i packet, encode i = .setup packet → exec i s = .fault .badDevState)
        ∧ (s.bds.ep0Out.count = 8 → exec .trnEp0Setup s = .fault .badDevState))
    ∧ (s.stage = 2 → s.remain ≠ 0 →
        (∀ b, s.table s.srcT = some b → b.length < s.srcOff.toNat + min s.remain.toNat 64) →
        exec .trnEp0In s = .fault .romOutOfRange
        ∧ (s.devstate ≤ 5 → runs s .trn .trnEp0In → exec .trn s = .fault .romOutOfRange))

/-! ## Buffer RAM and the tables -/

/-- R82, R83: what `BufWrite` stores is what `BufRead` answers, with no free draw taken, and every other byte is left
alone; the six buffers lie inside buffer RAM, none overlapping another. A read of unwritten bytes is assumption log 5; no
access here wraps (assumption log 7). -/
def Obligations.BufferRamReadsBackWrites : Prop :=
  (∀ (s : State) (a : Byte) (bytes : List Byte), a.toNat + bytes.length ≤ 256 →
    (s.bufWrite a bytes).bufRead a bytes.length = (bytes, s.draws)
    ∧ ∀ c, c < a.toNat ∨ a.toNat + bytes.length ≤ c → (s.bufWrite a bytes).byteAt c = s.byteAt c)
  ∧ (∀ i, (baseOf i).toNat + maxPkt i ≤ 256)
  ∧ ∀ i j, i ≠ j →
    (baseOf i).toNat + maxPkt i ≤ (baseOf j).toNat ∨ (baseOf j).toNat + maxPkt j ≤ (baseOf i).toNat

/-- R86 to R91: the sizes and fixed bytes of the tables; every table has the size R86 gives it, and every descriptor
declares its own size. The other bytes are open parameters (assumption log 6). -/
def Obligations.DescriptorTablesFit : Prop :=
  (devDesc.length = 18 ∧ devDesc.getD 0 0 = 0x12 ∧ devDesc.getD 1 0 = 0x01 ∧ devDesc.getD 7 0 = 64
    ∧ devDesc.getD 17 0 = 0x01)
  ∧ (cfgDesc.length = 46 ∧ cfgDesc.take 5 = [0x09, 0x02, 0x2E, 0x00, 0x01]
    ∧ (cfgDesc.drop 9).take 5 = [0x09, 0x04, 0x00, 0x00, 0x04]
    ∧ (cfgDesc.drop 18).take 6 = [0x07, 0x05, 0x81, 0x02, 0x07, 0x00]
    ∧ (cfgDesc.drop 25).take 6 = [0x07, 0x05, 0x01, 0x02, 0x07, 0x00]
    ∧ (cfgDesc.drop 32).take 6 = [0x07, 0x05, 0x82, 0x02, 0x01, 0x00]
    ∧ (cfgDesc.drop 39).take 6 = [0x07, 0x05, 0x02, 0x02, 0x01, 0x00])
  ∧ (∀ d, d = str1Desc ∨ d = str2Desc →
      2 ≤ d.length ∧ d.length ≤ 254 ∧ d.length % 2 = 0 ∧ d.getD 0 0 = BitVec.ofNat 8 d.length ∧ d.getD 1 0 = 0x03)
  ∧ (∀ (s : State) t b, s.table t = some b → b.length = tlen t ∧ (t ≠ 0 → (dlen t).toNat = b.length))
  ∧ (∀ (s : State) t, s.table t = none ↔ t = 6 ∨ t = 7)

/-- R44: bits 0 and 1 of `EPHALT` are hardwired 0 and writes to them are ignored; the other bits hold what is written; and
no instruction ever sets one of the two, in any state. Reading them as 0 whatever the register holds is the model's reading
of "hardwired" (assumption log 18). -/
def Obligations.Ep0HaltIsHardwired : Prop :=
  (∀ (i : Instr) (s t : State), exec i s = .next t → s.ephalt &&& 0b000011 = 0 → t.ephalt &&& 0b000011 = 0)
  ∧ (∀ (h : BitVec 6) (i : BdIndex), i.val < 2 → haltOf h i = false)
  ∧ (∀ (h : BitVec 6) (i j : BdIndex) (b : Bool),
      haltOf (writeHalt h i b) j = if j = i ∧ 2 ≤ i.val then b else haltOf h j)

/-- R110: the fields of the 32-bit image of a descriptor. -/
def Obligations.BdImageFields : Prop :=
  ∀ b : Bd,
    b.image.extractLsb' 0 8 = b.count ∧ b.image.extractLsb' 8 8 = b.addr
    ∧ b.image.getLsbD 16 = (b.own == .hw) ∧ b.image.getLsbD 17 = b.dts ∧ b.image.getLsbD 18 = b.stall
    ∧ b.image.extractLsb' 19 13 = 0#13

/-! ## The environment's moves -/

/-- R341, R348: a token while the module is disabled, at another address or for an endpoint that is absent or disabled is
ignored; one that meets all this while `UIR.TRN = 1` is answered NAK. In both cases no state changes. The answer stands in
`event` (assumption log 2); an IN whose ACK would be lost is a line of its own (assumption log 15). -/
def Obligations.TokensWaitForTheirTurn : Prop :=
  ∀ (s : State) (a : BitVec 7) (ep : BitVec 4) (d : Bool) (bytes : List Byte), bytes.length ≤ 64 →
    let ignored := s.moden = false ∨ a ≠ s.addr ∨ 2 < ep.toNat ∨ s.epen.getLsbD ep.toNat = false
    let answer : Event := if s.moden = false ∨ a ≠ s.addr ∨ 2 < ep.toNat ∨ s.epen.getLsbD ep.toNat = false
      then .noAnswer else .nak
    (ignored ∨ s.uir.getLsbD 3 = true) →
      lineStep (.out a ep d bytes) s = .next { s with event := some answer }
      ∧ lineStep (.inToken a ep) s = .next { s with event := some answer }
      ∧ lineStep (.inLost a ep) s = .next { s with event := some answer }
      ∧ (ep = 0 → lineStep (.setup a bytes) s = .next { s with event := some answer })

/-- R340: a SETUP of up to 64 bytes is taken whenever the SIE owns EP0 OUT, whatever its stall, toggle and count, and gives
both EP0 descriptors back; while the block owns EP0 OUT it is answered NAK and nothing changes, a case no legal state
meets. The answer stands in `event` (assumption log 2). -/
def Obligations.SetupMoveTaken : Prop :=
  ∀ (s : State) (a : BitVec 7) (bytes : List Byte), served s a 0 → bytes.length ≤ 64 →
    lineStep (.setup a bytes) s = .next
      (match s.bds.ep0Out.own with
      | .hw =>
        { s with
          mem := s.mem.write 0x00 bytes
          bds := { s.bds with
            ep0Out := { s.bds.ep0Out with count := BitVec.ofNat 8 bytes.length, own := .sw }
            ep0In := { s.bds.ep0In with own := .sw } }
          ustat := 0x40, uir := s.uir ||| 0x08, event := some .ack }
      | .sw => { s with event := some .nak })
    ∧ (Legal s → s.bds.ep0Out.own = .hw)

/-- R342, R343, R344, R346, R352: the answer to an OUT token that is served, in the order of the rules: a halted direction
stalls, a descriptor the block owns NAKs, a stalled one stalls, a packet too long for its descriptor is a bus error, one
with the old toggle is acknowledged and discarded, and any other is taken (the answer stands in `event`, assumption log
2). -/
def Obligations.OutMoveAnswered : Prop :=
  ∀ (s : State) (a : BitVec 7) (ep : Fin 3) (d : Bool) (bytes : List Byte), served s a ep → bytes.length ≤ 64 →
    let i := bdOf ep .outward
    lineStep (.out a (BitVec.ofNat 4 ep.val) d bytes) s = .next
      (if ep ≠ 0 ∧ s.ephalt.getLsbD i.val = true then { s with uir := s.uir ||| 0x20, event := some .stall }
      else if (s.bd i).own = .sw then { s with event := some .nak }
      else if (s.bd i).stall = true then { s with uir := s.uir ||| 0x20, event := some .stall }
      else if (s.bd i).count.toNat < bytes.length then { s with uir := s.uir ||| 0x02, event := some .noAnswer }
      else if d ≠ (s.bd i).dts then { s with event := some .ack }
      else
        { s with
          mem := s.mem.write (baseOf i) bytes
          bds := s.bds.set i { s.bd i with count := BitVec.ofNat 8 bytes.length, own := .sw }
          ustat := BitVec.ofNat 8 ep.val, uir := s.uir ||| 0x08, event := some .ack })

/-- R345, R346, R347: the answer to an IN token that is served: a halted direction stalls, a descriptor the block owns
NAKs, a stalled one stalls, and any other sends its bytes under its toggle, completing the transaction when the host's ACK
arrives and changing nothing but the draws taken of unwritten bytes when it is lost (assumption log 2, 5 and 15). -/
def Obligations.InMoveAnswered : Prop :=
  ∀ (s : State) (a : BitVec 7) (ep : Fin 3), served s a ep →
    let i := bdOf ep .inward
    let read := s.bufRead (baseOf i) (s.bd i).count.toNat
    let refusal : Option State :=
      if ep ≠ 0 ∧ s.ephalt.getLsbD i.val = true then some { s with uir := s.uir ||| 0x20, event := some .stall }
      else if (s.bd i).own = .sw then some { s with event := some .nak }
      else if (s.bd i).stall = true then some { s with uir := s.uir ||| 0x20, event := some .stall }
      else none
    let sent : State := { s with draws := read.2, event := some (.data (s.bd i).dts read.1) }
    lineStep (.inToken a (BitVec.ofNat 4 ep.val)) s = .next (refusal.getD
      { sent with
        bds := s.bds.set i { s.bd i with own := .sw }, ustat := BitVec.ofNat 8 (0x30 + ep.val)
        uir := s.uir ||| 0x08 })
    ∧ lineStep (.inLost a (BitVec.ofNat 4 ep.val)) s = .next (refusal.getD sent)

/-- R349, R350, R351, R353: a flag move sets its bit while the module is enabled and nothing while it is not; a BUS move
sets the two inputs whatever the module enable; neither changes anything else. That such a move's event is "no answer" is
the model's (assumption log 16). -/
def Obligations.FlagAndBusMoves : Prop :=
  ∀ s : State,
    (∀ f : SieFlag, lineStep (.flag f) s = .next { s with
        event := some .noAnswer
        uir := if s.moden then
            s.uir ||| (match f with | .urst => 0x01 | .uerr => 0x02 | .actv => 0x04 | .idle => 0x10 | .sof => 0x40)
          else s.uir })
    ∧ ∀ v z : Bool, lineStep (.bus v z) s = .next { s with vbus := v, se0 := z, event := some .noAnswer }

/-- R354, R357: the token and flag moves of the SIE, in every state: they write only descriptors, `UIR`, `USTAT`, buffer
RAM, the draws and the event; they change no toggle, stall or address, no descriptor the block owns and none of a disabled
endpoint, give descriptors only back to the block, and clear no flag; while the module is disabled they change nothing. A
count changes only when a SETUP or an OUT completes on that descriptor, to the number of its bytes. IN and flag moves store
nothing; a SETUP stores at most its bytes in the EP0 OUT buffer, an OUT at most its bytes in the buffer of its endpoint. -/
def Obligations.SieKeepsToItsSide : Prop :=
  ∀ (l : Line) (s t : State), l ≠ .pump → (∀ c data, l ≠ .cmd c data) → (∀ v z, l ≠ .bus v z) →
    lineStep l s = .next t →
    t = { s with bds := t.bds, uir := t.uir, ustat := t.ustat, mem := t.mem, draws := t.draws, event := t.event }
    ∧ (∀ i, (t.bd i).dts = (s.bd i).dts ∧ (t.bd i).stall = (s.bd i).stall ∧ (t.bd i).addr = (s.bd i).addr
        ∧ ((t.bd i).own = .hw → (s.bd i).own = .hw)
        ∧ ((s.bd i).own = .sw ∨ s.epen.getLsbD (i.val / 2) = false → t.bd i = s.bd i)
        ∧ ((t.bd i).count ≠ (s.bd i).count →
            s.uir.getLsbD 3 = false ∧ t.uir.getLsbD 3 = true ∧ t.event = some .ack
            ∧ ((∃ a bytes, l = .setup a bytes ∧ i = 0 ∧ (t.bd i).count = BitVec.ofNat 8 bytes.length)
              ∨ ∃ a d bytes, ∃ e : Fin 3, l = .out a (BitVec.ofNat 4 e.val) d bytes ∧ i = bdOf e .outward
                  ∧ (t.bd i).count = BitVec.ofNat 8 bytes.length)))
    ∧ s.uir &&& ~~~t.uir = 0
    ∧ (s.moden = false → t = { s with event := t.event })
    ∧ ((∀ a bytes, l ≠ .setup a bytes) → (∀ a ep d bytes, l ≠ .out a ep d bytes) → t.mem = s.mem)
    ∧ (∀ a bytes, l = .setup a bytes → ∀ c, (baseOf 0).toNat + bytes.length ≤ c → t.byteAt c = s.byteAt c)
    ∧ (∀ a ep d bytes, l = .out a ep d bytes → ∀ c,
        (∀ e : Fin 3, ep = BitVec.ofNat 4 e.val →
          c < (baseOf (bdOf e .outward)).toNat ∨ (baseOf (bdOf e .outward)).toNat + bytes.length ≤ c) →
        t.byteAt c = s.byteAt c)

/-! ## The invariant, and what follows from it -/

/-- The power-on state is legal. -/
def Obligations.ResetIsLegal : Prop := Legal State.reset

/-- Every step of every agent, on every agenda, keeps a legal state legal: R61's (I1) to (I7), the facts that make them
inductive, and the canonical form of buffer RAM. So does each branch of a pump step run when its test holds, so that a
branch always starts from a legal state. -/
def Obligations.EveryStepKeepsLegal : Prop :=
  (∀ s t : State, Legal s → step s = .next t → Legal t)
  ∧ ∀ row ∈ branchRows, ∀ s t : State, Legal s → s.view &&& row.1 = row.2.1 → exec row.2.2 s = .next t → Legal t

/-- No step of a legal state faults, so the faults of R376 are never met; and while the environment keeps to its duties
(R354, assumption log 17), every step has a next state: "The block raises no exception, takes no trap and never halts"
(R370). -/
def Obligations.LegalStatesNeverStop : Prop :=
  ∀ s : State, Legal s →
    (∀ f, step s ≠ .fault f) ∧ ((∀ l ∈ s.agenda, l.wf = true) → ∃ t, step s = .next t)

/-- Every step keeps buffer RAM in its canonical form, from every state whatever. -/
def Obligations.BufferRamStaysCanonical : Prop :=
  ∀ s t : State, s.mem.wf = true → step s = .next t → t.mem.wf = true

/-- After any pump step of a legal state that ends in Default or beyond, a SETUP to the device's address is taken, be EP0
stalled or in the middle of a transfer. -/
def Obligations.SetupIsTakenAfterEveryPumpStep : Prop :=
  ∀ s t : State, Legal s → pumpStep s = .next t → 3 ≤ t.devstate →
    ∀ bytes : List Byte, bytes.length ≤ 64 →
      ∃ u, lineStep (.setup t.addr bytes) t = .next u ∧ u.event = some .ack ∧ u.ustat = 0x40
        ∧ u.bds.ep0Out.own = .sw ∧ u.bds.ep0In.own = .sw

/-- R377, R395: from every legal state with the module enabled and bus power present, a bus-reset flag and one pump step
lead to Default with EP0 OUT armed and no trace of the transfer that was in progress. -/
def Obligations.BusResetRecovers : Prop :=
  ∀ s : State, Legal s → s.moden = true → s.vbus = true →
    ∃ t, pumpStep { s with uir := s.uir ||| 0x01 } = .next t
      ∧ t.devstate = 3 ∧ t.addr = 0 ∧ t.epen = 0b001 ∧ t.config = 0 ∧ t.rwu = false ∧ t.selfpwr = false
      ∧ t.stage = 0 ∧ t.remain = 0 ∧ t.srcOff = 0 ∧ t.rxtot = 0 ∧ t.apend = false
      ∧ t.bds.ep0Out = { own := .hw, dts := true, stall := false, count := 64, addr := 0x00 }
      ∧ ∀ i : BdIndex, i ≠ 0 → (t.bd i).own = .sw ∧ (t.bd i).count = 0 ∧ (t.bd i).stall = false

/-- R297: in every legal state outside Configured the bulk channel is closed in both ways: a bulk token is ignored and a
bulk command answers 0, neither changing any state. -/
def Obligations.BulkNeedsConfigured : Prop :=
  ∀ (s : State) (ep : Fin 3) (a : BitVec 7) (d : Bool) (bytes data : List Byte) (len : Byte),
    Legal s → s.devstate ≠ 5 → ep ≠ 0 → bytes.length ≤ 64 →
    lineStep (.out a (BitVec.ofNat 4 ep.val) d bytes) s = .next { s with event := some .noAnswer }
    ∧ lineStep (.inToken a (BitVec.ofNat 4 ep.val)) s = .next { s with event := some .noAnswer }
    ∧ exec (.bulkWrite (BitVec.ofNat 4 ep.val) data) s = .next { s with resp := some { r := 0, q := [] } }
    ∧ exec (.bulkRead (BitVec.ofNat 4 ep.val) len) s = .next { s with resp := some { r := 0, q := [] } }

/-- R207, R402: a control read of any table, as the host sees it. Once a response `b` is answered under a limit of
`wLength`, the host's IN tokens, each followed by a pump step, read exactly the first `min(|b|, wLength)` bytes in
`max(1, ceil(L/64))` packets of at most 64 bytes with alternating toggles; one more token is answered NAK. -/
def Obligations.ControlReadSendsTheResponse : Prop :=
  ∀ (s : State) (t : BitVec 3) (b : List Byte) (wLength : BitVec 16),
    ep0Owned s → s.bds.ep0In.stall = false → s.moden = true → s.vbus = true → s.epen.getLsbD 0 = true → s.uir = 0 →
    3 ≤ s.devstate → s.devstate ≤ 5 → s.table t = some b →
    let total := min b.length wLength.toNat
    let k := max 1 ((total + 63) / 64)
    controlRead (k + 1) (answered s t b wLength)
      = chunkEvents k (!s.bds.ep0In.dts) (b.take total) ++ [some .nak]
end

