-- ==== Sys2Proof/Laws/State.lean ====
section
/-! SUPPORT. What every named update of the state does to every field, one lemma each, true by computation, so that no
later proof unfolds a record update. -/

namespace Sys2Proof.Machine

/-! ## Setting a flag of `UIR` -/

@[simp] theorem State.setUir_bds (s : State) (k : Nat) : (s.setUir k).bds = s.bds := rfl
@[simp] theorem State.setUir_uir (s : State) (k : Nat) : (s.setUir k).uir = s.uir ||| bitMask k := rfl
@[simp] theorem State.setUir_ustat (s : State) (k : Nat) : (s.setUir k).ustat = s.ustat := rfl
@[simp] theorem State.setUir_epen (s : State) (k : Nat) : (s.setUir k).epen = s.epen := rfl
@[simp] theorem State.setUir_addr (s : State) (k : Nat) : (s.setUir k).addr = s.addr := rfl
@[simp] theorem State.setUir_ephalt (s : State) (k : Nat) : (s.setUir k).ephalt = s.ephalt := rfl
@[simp] theorem State.setUir_moden (s : State) (k : Nat) : (s.setUir k).moden = s.moden := rfl
@[simp] theorem State.setUir_vbus (s : State) (k : Nat) : (s.setUir k).vbus = s.vbus := rfl
@[simp] theorem State.setUir_se0 (s : State) (k : Nat) : (s.setUir k).se0 = s.se0 := rfl
@[simp] theorem State.setUir_stage (s : State) (k : Nat) : (s.setUir k).stage = s.stage := rfl
@[simp] theorem State.setUir_remain (s : State) (k : Nat) : (s.setUir k).remain = s.remain := rfl
@[simp] theorem State.setUir_srcT (s : State) (k : Nat) : (s.setUir k).srcT = s.srcT := rfl
@[simp] theorem State.setUir_srcOff (s : State) (k : Nat) : (s.setUir k).srcOff = s.srcOff := rfl
@[simp] theorem State.setUir_handled (s : State) (k : Nat) : (s.setUir k).handled = s.handled := rfl
@[simp] theorem State.setUir_rxtot (s : State) (k : Nat) : (s.setUir k).rxtot = s.rxtot := rfl
@[simp] theorem State.setUir_setup (s : State) (k : Nat) : (s.setUir k).setup = s.setup := rfl
@[simp] theorem State.setUir_respBuf0 (s : State) (k : Nat) : (s.setUir k).respBuf0 = s.respBuf0 := rfl
@[simp] theorem State.setUir_respBuf1 (s : State) (k : Nat) : (s.setUir k).respBuf1 = s.respBuf1 := rfl
@[simp] theorem State.setUir_devstate (s : State) (k : Nat) : (s.setUir k).devstate = s.devstate := rfl
@[simp] theorem State.setUir_susp (s : State) (k : Nat) : (s.setUir k).susp = s.susp := rfl
@[simp] theorem State.setUir_rwu (s : State) (k : Nat) : (s.setUir k).rwu = s.rwu := rfl
@[simp] theorem State.setUir_selfpwr (s : State) (k : Nat) : (s.setUir k).selfpwr = s.selfpwr := rfl
@[simp] theorem State.setUir_config (s : State) (k : Nat) : (s.setUir k).config = s.config := rfl
@[simp] theorem State.setUir_paddr (s : State) (k : Nat) : (s.setUir k).paddr = s.paddr := rfl
@[simp] theorem State.setUir_apend (s : State) (k : Nat) : (s.setUir k).apend = s.apend := rfl
@[simp] theorem State.setUir_mem (s : State) (k : Nat) : (s.setUir k).mem = s.mem := rfl
@[simp] theorem State.setUir_draws (s : State) (k : Nat) : (s.setUir k).draws = s.draws := rfl
@[simp] theorem State.setUir_agenda (s : State) (k : Nat) : (s.setUir k).agenda = s.agenda := rfl
@[simp] theorem State.setUir_bdBus (s : State) (k : Nat) : (s.setUir k).bdBus = s.bdBus := rfl
@[simp] theorem State.setUir_resp (s : State) (k : Nat) : (s.setUir k).resp = s.resp := rfl
@[simp] theorem State.setUir_event (s : State) (k : Nat) : (s.setUir k).event = s.event := rfl
@[simp] theorem State.setUir_bdAnswer (s : State) (k : Nat) : (s.setUir k).bdAnswer = s.bdAnswer := rfl

/-! ## Clearing a flag of `UIR` -/

@[simp] theorem State.clearUir_bds (s : State) (k : Nat) : (s.clearUir k).bds = s.bds := rfl
@[simp] theorem State.clearUir_uir (s : State) (k : Nat) : (s.clearUir k).uir = s.uir &&& ~~~(bitMask k) := rfl
@[simp] theorem State.clearUir_ustat (s : State) (k : Nat) : (s.clearUir k).ustat = s.ustat := rfl
@[simp] theorem State.clearUir_epen (s : State) (k : Nat) : (s.clearUir k).epen = s.epen := rfl
@[simp] theorem State.clearUir_addr (s : State) (k : Nat) : (s.clearUir k).addr = s.addr := rfl
@[simp] theorem State.clearUir_ephalt (s : State) (k : Nat) : (s.clearUir k).ephalt = s.ephalt := rfl
@[simp] theorem State.clearUir_moden (s : State) (k : Nat) : (s.clearUir k).moden = s.moden := rfl
@[simp] theorem State.clearUir_vbus (s : State) (k : Nat) : (s.clearUir k).vbus = s.vbus := rfl
@[simp] theorem State.clearUir_se0 (s : State) (k : Nat) : (s.clearUir k).se0 = s.se0 := rfl
@[simp] theorem State.clearUir_stage (s : State) (k : Nat) : (s.clearUir k).stage = s.stage := rfl
@[simp] theorem State.clearUir_remain (s : State) (k : Nat) : (s.clearUir k).remain = s.remain := rfl
@[simp] theorem State.clearUir_srcT (s : State) (k : Nat) : (s.clearUir k).srcT = s.srcT := rfl
@[simp] theorem State.clearUir_srcOff (s : State) (k : Nat) : (s.clearUir k).srcOff = s.srcOff := rfl
@[simp] theorem State.clearUir_handled (s : State) (k : Nat) : (s.clearUir k).handled = s.handled := rfl
@[simp] theorem State.clearUir_rxtot (s : State) (k : Nat) : (s.clearUir k).rxtot = s.rxtot := rfl
@[simp] theorem State.clearUir_setup (s : State) (k : Nat) : (s.clearUir k).setup = s.setup := rfl
@[simp] theorem State.clearUir_respBuf0 (s : State) (k : Nat) : (s.clearUir k).respBuf0 = s.respBuf0 := rfl
@[simp] theorem State.clearUir_respBuf1 (s : State) (k : Nat) : (s.clearUir k).respBuf1 = s.respBuf1 := rfl
@[simp] theorem State.clearUir_devstate (s : State) (k : Nat) : (s.clearUir k).devstate = s.devstate := rfl
@[simp] theorem State.clearUir_susp (s : State) (k : Nat) : (s.clearUir k).susp = s.susp := rfl
@[simp] theorem State.clearUir_rwu (s : State) (k : Nat) : (s.clearUir k).rwu = s.rwu := rfl
@[simp] theorem State.clearUir_selfpwr (s : State) (k : Nat) : (s.clearUir k).selfpwr = s.selfpwr := rfl
@[simp] theorem State.clearUir_config (s : State) (k : Nat) : (s.clearUir k).config = s.config := rfl
@[simp] theorem State.clearUir_paddr (s : State) (k : Nat) : (s.clearUir k).paddr = s.paddr := rfl
@[simp] theorem State.clearUir_apend (s : State) (k : Nat) : (s.clearUir k).apend = s.apend := rfl
@[simp] theorem State.clearUir_mem (s : State) (k : Nat) : (s.clearUir k).mem = s.mem := rfl
@[simp] theorem State.clearUir_draws (s : State) (k : Nat) : (s.clearUir k).draws = s.draws := rfl
@[simp] theorem State.clearUir_agenda (s : State) (k : Nat) : (s.clearUir k).agenda = s.agenda := rfl
@[simp] theorem State.clearUir_bdBus (s : State) (k : Nat) : (s.clearUir k).bdBus = s.bdBus := rfl
@[simp] theorem State.clearUir_resp (s : State) (k : Nat) : (s.clearUir k).resp = s.resp := rfl
@[simp] theorem State.clearUir_event (s : State) (k : Nat) : (s.clearUir k).event = s.event := rfl
@[simp] theorem State.clearUir_bdAnswer (s : State) (k : Nat) : (s.clearUir k).bdAnswer = s.bdAnswer := rfl

/-! ## Counting the free draws -/

@[simp] theorem State.setDraws_bds (s : State) (n : Nat) : (s.setDraws n).bds = s.bds := rfl
@[simp] theorem State.setDraws_uir (s : State) (n : Nat) : (s.setDraws n).uir = s.uir := rfl
@[simp] theorem State.setDraws_ustat (s : State) (n : Nat) : (s.setDraws n).ustat = s.ustat := rfl
@[simp] theorem State.setDraws_epen (s : State) (n : Nat) : (s.setDraws n).epen = s.epen := rfl
@[simp] theorem State.setDraws_addr (s : State) (n : Nat) : (s.setDraws n).addr = s.addr := rfl
@[simp] theorem State.setDraws_ephalt (s : State) (n : Nat) : (s.setDraws n).ephalt = s.ephalt := rfl
@[simp] theorem State.setDraws_moden (s : State) (n : Nat) : (s.setDraws n).moden = s.moden := rfl
@[simp] theorem State.setDraws_vbus (s : State) (n : Nat) : (s.setDraws n).vbus = s.vbus := rfl
@[simp] theorem State.setDraws_se0 (s : State) (n : Nat) : (s.setDraws n).se0 = s.se0 := rfl
@[simp] theorem State.setDraws_stage (s : State) (n : Nat) : (s.setDraws n).stage = s.stage := rfl
@[simp] theorem State.setDraws_remain (s : State) (n : Nat) : (s.setDraws n).remain = s.remain := rfl
@[simp] theorem State.setDraws_srcT (s : State) (n : Nat) : (s.setDraws n).srcT = s.srcT := rfl
@[simp] theorem State.setDraws_srcOff (s : State) (n : Nat) : (s.setDraws n).srcOff = s.srcOff := rfl
@[simp] theorem State.setDraws_handled (s : State) (n : Nat) : (s.setDraws n).handled = s.handled := rfl
@[simp] theorem State.setDraws_rxtot (s : State) (n : Nat) : (s.setDraws n).rxtot = s.rxtot := rfl
@[simp] theorem State.setDraws_setup (s : State) (n : Nat) : (s.setDraws n).setup = s.setup := rfl
@[simp] theorem State.setDraws_respBuf0 (s : State) (n : Nat) : (s.setDraws n).respBuf0 = s.respBuf0 := rfl
@[simp] theorem State.setDraws_respBuf1 (s : State) (n : Nat) : (s.setDraws n).respBuf1 = s.respBuf1 := rfl
@[simp] theorem State.setDraws_devstate (s : State) (n : Nat) : (s.setDraws n).devstate = s.devstate := rfl
@[simp] theorem State.setDraws_susp (s : State) (n : Nat) : (s.setDraws n).susp = s.susp := rfl
@[simp] theorem State.setDraws_rwu (s : State) (n : Nat) : (s.setDraws n).rwu = s.rwu := rfl
@[simp] theorem State.setDraws_selfpwr (s : State) (n : Nat) : (s.setDraws n).selfpwr = s.selfpwr := rfl
@[simp] theorem State.setDraws_config (s : State) (n : Nat) : (s.setDraws n).config = s.config := rfl
@[simp] theorem State.setDraws_paddr (s : State) (n : Nat) : (s.setDraws n).paddr = s.paddr := rfl
@[simp] theorem State.setDraws_apend (s : State) (n : Nat) : (s.setDraws n).apend = s.apend := rfl
@[simp] theorem State.setDraws_mem (s : State) (n : Nat) : (s.setDraws n).mem = s.mem := rfl
@[simp] theorem State.setDraws_draws (s : State) (n : Nat) : (s.setDraws n).draws = n := rfl
@[simp] theorem State.setDraws_agenda (s : State) (n : Nat) : (s.setDraws n).agenda = s.agenda := rfl
@[simp] theorem State.setDraws_bdBus (s : State) (n : Nat) : (s.setDraws n).bdBus = s.bdBus := rfl
@[simp] theorem State.setDraws_resp (s : State) (n : Nat) : (s.setDraws n).resp = s.resp := rfl
@[simp] theorem State.setDraws_event (s : State) (n : Nat) : (s.setDraws n).event = s.event := rfl
@[simp] theorem State.setDraws_bdAnswer (s : State) (n : Nat) : (s.setDraws n).bdAnswer = s.bdAnswer := rfl

/-! ## `BufWrite` -/

@[simp] theorem State.bufWrite_bds (s : State) (a : Byte) (b : List Byte) : (s.bufWrite a b).bds = s.bds := rfl
@[simp] theorem State.bufWrite_uir (s : State) (a : Byte) (b : List Byte) : (s.bufWrite a b).uir = s.uir := rfl
@[simp] theorem State.bufWrite_ustat (s : State) (a : Byte) (b : List Byte) : (s.bufWrite a b).ustat = s.ustat := rfl
@[simp] theorem State.bufWrite_epen (s : State) (a : Byte) (b : List Byte) : (s.bufWrite a b).epen = s.epen := rfl
@[simp] theorem State.bufWrite_addr (s : State) (a : Byte) (b : List Byte) : (s.bufWrite a b).addr = s.addr := rfl
@[simp] theorem State.bufWrite_ephalt (s : State) (a : Byte) (b : List Byte) :
    (s.bufWrite a b).ephalt = s.ephalt := rfl
@[simp] theorem State.bufWrite_moden (s : State) (a : Byte) (b : List Byte) : (s.bufWrite a b).moden = s.moden := rfl
@[simp] theorem State.bufWrite_vbus (s : State) (a : Byte) (b : List Byte) : (s.bufWrite a b).vbus = s.vbus := rfl
@[simp] theorem State.bufWrite_se0 (s : State) (a : Byte) (b : List Byte) : (s.bufWrite a b).se0 = s.se0 := rfl
@[simp] theorem State.bufWrite_stage (s : State) (a : Byte) (b : List Byte) : (s.bufWrite a b).stage = s.stage := rfl
@[simp] theorem State.bufWrite_remain (s : State) (a : Byte) (b : List Byte) :
    (s.bufWrite a b).remain = s.remain := rfl
@[simp] theorem State.bufWrite_srcT (s : State) (a : Byte) (b : List Byte) : (s.bufWrite a b).srcT = s.srcT := rfl
@[simp] theorem State.bufWrite_srcOff (s : State) (a : Byte) (b : List Byte) :
    (s.bufWrite a b).srcOff = s.srcOff := rfl
@[simp] theorem State.bufWrite_handled (s : State) (a : Byte) (b : List Byte) :
    (s.bufWrite a b).handled = s.handled := rfl
@[simp] theorem State.bufWrite_rxtot (s : State) (a : Byte) (b : List Byte) : (s.bufWrite a b).rxtot = s.rxtot := rfl
@[simp] theorem State.bufWrite_setup (s : State) (a : Byte) (b : List Byte) : (s.bufWrite a b).setup = s.setup := rfl
@[simp] theorem State.bufWrite_respBuf0 (s : State) (a : Byte) (b : List Byte) :
    (s.bufWrite a b).respBuf0 = s.respBuf0 := rfl
@[simp] theorem State.bufWrite_respBuf1 (s : State) (a : Byte) (b : List Byte) :
    (s.bufWrite a b).respBuf1 = s.respBuf1 := rfl
@[simp] theorem State.bufWrite_devstate (s : State) (a : Byte) (b : List Byte) :
    (s.bufWrite a b).devstate = s.devstate := rfl
@[simp] theorem State.bufWrite_susp (s : State) (a : Byte) (b : List Byte) : (s.bufWrite a b).susp = s.susp := rfl
@[simp] theorem State.bufWrite_rwu (s : State) (a : Byte) (b : List Byte) : (s.bufWrite a b).rwu = s.rwu := rfl
@[simp] theorem State.bufWrite_selfpwr (s : State) (a : Byte) (b : List Byte) :
    (s.bufWrite a b).selfpwr = s.selfpwr := rfl
@[simp] theorem State.bufWrite_config (s : State) (a : Byte) (b : List Byte) :
    (s.bufWrite a b).config = s.config := rfl
@[simp] theorem State.bufWrite_paddr (s : State) (a : Byte) (b : List Byte) : (s.bufWrite a b).paddr = s.paddr := rfl
@[simp] theorem State.bufWrite_apend (s : State) (a : Byte) (b : List Byte) : (s.bufWrite a b).apend = s.apend := rfl
@[simp] theorem State.bufWrite_mem (s : State) (a : Byte) (b : List Byte) :
    (s.bufWrite a b).mem = s.mem.write a b := rfl
@[simp] theorem State.bufWrite_draws (s : State) (a : Byte) (b : List Byte) : (s.bufWrite a b).draws = s.draws := rfl
@[simp] theorem State.bufWrite_agenda (s : State) (a : Byte) (b : List Byte) :
    (s.bufWrite a b).agenda = s.agenda := rfl
@[simp] theorem State.bufWrite_bdBus (s : State) (a : Byte) (b : List Byte) : (s.bufWrite a b).bdBus = s.bdBus := rfl
@[simp] theorem State.bufWrite_resp (s : State) (a : Byte) (b : List Byte) : (s.bufWrite a b).resp = s.resp := rfl
@[simp] theorem State.bufWrite_event (s : State) (a : Byte) (b : List Byte) : (s.bufWrite a b).event = s.event := rfl
@[simp] theorem State.bufWrite_bdAnswer (s : State) (a : Byte) (b : List Byte) :
    (s.bufWrite a b).bdAnswer = s.bdAnswer := rfl

/-! ## Replacing the BD file -/

@[simp] theorem State.setBds_bds (s : State) (f : BdFile) : (s.setBds f).bds = f := rfl
@[simp] theorem State.setBds_uir (s : State) (f : BdFile) : (s.setBds f).uir = s.uir := rfl
@[simp] theorem State.setBds_ustat (s : State) (f : BdFile) : (s.setBds f).ustat = s.ustat := rfl
@[simp] theorem State.setBds_epen (s : State) (f : BdFile) : (s.setBds f).epen = s.epen := rfl
@[simp] theorem State.setBds_addr (s : State) (f : BdFile) : (s.setBds f).addr = s.addr := rfl
@[simp] theorem State.setBds_ephalt (s : State) (f : BdFile) : (s.setBds f).ephalt = s.ephalt := rfl
@[simp] theorem State.setBds_moden (s : State) (f : BdFile) : (s.setBds f).moden = s.moden := rfl
@[simp] theorem State.setBds_vbus (s : State) (f : BdFile) : (s.setBds f).vbus = s.vbus := rfl
@[simp] theorem State.setBds_se0 (s : State) (f : BdFile) : (s.setBds f).se0 = s.se0 := rfl
@[simp] theorem State.setBds_stage (s : State) (f : BdFile) : (s.setBds f).stage = s.stage := rfl
@[simp] theorem State.setBds_remain (s : State) (f : BdFile) : (s.setBds f).remain = s.remain := rfl
@[simp] theorem State.setBds_srcT (s : State) (f : BdFile) : (s.setBds f).srcT = s.srcT := rfl
@[simp] theorem State.setBds_srcOff (s : State) (f : BdFile) : (s.setBds f).srcOff = s.srcOff := rfl
@[simp] theorem State.setBds_handled (s : State) (f : BdFile) : (s.setBds f).handled = s.handled := rfl
@[simp] theorem State.setBds_rxtot (s : State) (f : BdFile) : (s.setBds f).rxtot = s.rxtot := rfl
@[simp] theorem State.setBds_setup (s : State) (f : BdFile) : (s.setBds f).setup = s.setup := rfl
@[simp] theorem State.setBds_respBuf0 (s : State) (f : BdFile) : (s.setBds f).respBuf0 = s.respBuf0 := rfl
@[simp] theorem State.setBds_respBuf1 (s : State) (f : BdFile) : (s.setBds f).respBuf1 = s.respBuf1 := rfl
@[simp] theorem State.setBds_devstate (s : State) (f : BdFile) : (s.setBds f).devstate = s.devstate := rfl
@[simp] theorem State.setBds_susp (s : State) (f : BdFile) : (s.setBds f).susp = s.susp := rfl
@[simp] theorem State.setBds_rwu (s : State) (f : BdFile) : (s.setBds f).rwu = s.rwu := rfl
@[simp] theorem State.setBds_selfpwr (s : State) (f : BdFile) : (s.setBds f).selfpwr = s.selfpwr := rfl
@[simp] theorem State.setBds_config (s : State) (f : BdFile) : (s.setBds f).config = s.config := rfl
@[simp] theorem State.setBds_paddr (s : State) (f : BdFile) : (s.setBds f).paddr = s.paddr := rfl
@[simp] theorem State.setBds_apend (s : State) (f : BdFile) : (s.setBds f).apend = s.apend := rfl
@[simp] theorem State.setBds_mem (s : State) (f : BdFile) : (s.setBds f).mem = s.mem := rfl
@[simp] theorem State.setBds_draws (s : State) (f : BdFile) : (s.setBds f).draws = s.draws := rfl
@[simp] theorem State.setBds_agenda (s : State) (f : BdFile) : (s.setBds f).agenda = s.agenda := rfl
@[simp] theorem State.setBds_bdBus (s : State) (f : BdFile) : (s.setBds f).bdBus = s.bdBus := rfl
@[simp] theorem State.setBds_resp (s : State) (f : BdFile) : (s.setBds f).resp = s.resp := rfl
@[simp] theorem State.setBds_event (s : State) (f : BdFile) : (s.setBds f).event = s.event := rfl
@[simp] theorem State.setBds_bdAnswer (s : State) (f : BdFile) : (s.setBds f).bdAnswer = s.bdAnswer := rfl

/-! ## ARM -/

@[simp] theorem State.arm_bds (s : State) (i : BdIndex) (n : Byte) (t : Bool) :
    (s.arm i n t).bds = s.bds.arm i n t := rfl
@[simp] theorem State.arm_uir (s : State) (i : BdIndex) (n : Byte) (t : Bool) : (s.arm i n t).uir = s.uir := rfl
@[simp] theorem State.arm_ustat (s : State) (i : BdIndex) (n : Byte) (t : Bool) : (s.arm i n t).ustat = s.ustat := rfl
@[simp] theorem State.arm_epen (s : State) (i : BdIndex) (n : Byte) (t : Bool) : (s.arm i n t).epen = s.epen := rfl
@[simp] theorem State.arm_addr (s : State) (i : BdIndex) (n : Byte) (t : Bool) : (s.arm i n t).addr = s.addr := rfl
@[simp] theorem State.arm_ephalt (s : State) (i : BdIndex) (n : Byte) (t : Bool) :
    (s.arm i n t).ephalt = s.ephalt := rfl
@[simp] theorem State.arm_moden (s : State) (i : BdIndex) (n : Byte) (t : Bool) : (s.arm i n t).moden = s.moden := rfl
@[simp] theorem State.arm_vbus (s : State) (i : BdIndex) (n : Byte) (t : Bool) : (s.arm i n t).vbus = s.vbus := rfl
@[simp] theorem State.arm_se0 (s : State) (i : BdIndex) (n : Byte) (t : Bool) : (s.arm i n t).se0 = s.se0 := rfl
@[simp] theorem State.arm_stage (s : State) (i : BdIndex) (n : Byte) (t : Bool) : (s.arm i n t).stage = s.stage := rfl
@[simp] theorem State.arm_remain (s : State) (i : BdIndex) (n : Byte) (t : Bool) :
    (s.arm i n t).remain = s.remain := rfl
@[simp] theorem State.arm_srcT (s : State) (i : BdIndex) (n : Byte) (t : Bool) : (s.arm i n t).srcT = s.srcT := rfl
@[simp] theorem State.arm_srcOff (s : State) (i : BdIndex) (n : Byte) (t : Bool) :
    (s.arm i n t).srcOff = s.srcOff := rfl
@[simp] theorem State.arm_handled (s : State) (i : BdIndex) (n : Byte) (t : Bool) :
    (s.arm i n t).handled = s.handled := rfl
@[simp] theorem State.arm_rxtot (s : State) (i : BdIndex) (n : Byte) (t : Bool) : (s.arm i n t).rxtot = s.rxtot := rfl
@[simp] theorem State.arm_setup (s : State) (i : BdIndex) (n : Byte) (t : Bool) : (s.arm i n t).setup = s.setup := rfl
@[simp] theorem State.arm_respBuf0 (s : State) (i : BdIndex) (n : Byte) (t : Bool) :
    (s.arm i n t).respBuf0 = s.respBuf0 := rfl
@[simp] theorem State.arm_respBuf1 (s : State) (i : BdIndex) (n : Byte) (t : Bool) :
    (s.arm i n t).respBuf1 = s.respBuf1 := rfl
@[simp] theorem State.arm_devstate (s : State) (i : BdIndex) (n : Byte) (t : Bool) :
    (s.arm i n t).devstate = s.devstate := rfl
@[simp] theorem State.arm_susp (s : State) (i : BdIndex) (n : Byte) (t : Bool) : (s.arm i n t).susp = s.susp := rfl
@[simp] theorem State.arm_rwu (s : State) (i : BdIndex) (n : Byte) (t : Bool) : (s.arm i n t).rwu = s.rwu := rfl
@[simp] theorem State.arm_selfpwr (s : State) (i : BdIndex) (n : Byte) (t : Bool) :
    (s.arm i n t).selfpwr = s.selfpwr := rfl
@[simp] theorem State.arm_config (s : State) (i : BdIndex) (n : Byte) (t : Bool) :
    (s.arm i n t).config = s.config := rfl
@[simp] theorem State.arm_paddr (s : State) (i : BdIndex) (n : Byte) (t : Bool) : (s.arm i n t).paddr = s.paddr := rfl
@[simp] theorem State.arm_apend (s : State) (i : BdIndex) (n : Byte) (t : Bool) : (s.arm i n t).apend = s.apend := rfl
@[simp] theorem State.arm_mem (s : State) (i : BdIndex) (n : Byte) (t : Bool) : (s.arm i n t).mem = s.mem := rfl
@[simp] theorem State.arm_draws (s : State) (i : BdIndex) (n : Byte) (t : Bool) : (s.arm i n t).draws = s.draws := rfl
@[simp] theorem State.arm_agenda (s : State) (i : BdIndex) (n : Byte) (t : Bool) :
    (s.arm i n t).agenda = s.agenda := rfl
@[simp] theorem State.arm_bdBus (s : State) (i : BdIndex) (n : Byte) (t : Bool) : (s.arm i n t).bdBus = s.bdBus := rfl
@[simp] theorem State.arm_resp (s : State) (i : BdIndex) (n : Byte) (t : Bool) : (s.arm i n t).resp = s.resp := rfl
@[simp] theorem State.arm_event (s : State) (i : BdIndex) (n : Byte) (t : Bool) : (s.arm i n t).event = s.event := rfl
@[simp] theorem State.arm_bdAnswer (s : State) (i : BdIndex) (n : Byte) (t : Bool) :
    (s.arm i n t).bdAnswer = s.bdAnswer := rfl

/-! ## RECLAIM -/

@[simp] theorem State.reclaim_bds (s : State) (i : BdIndex) :
    (s.reclaim i).bds = s.bds.set i ((s.bd i).reclaimed i) := rfl
@[simp] theorem State.reclaim_uir (s : State) (i : BdIndex) : (s.reclaim i).uir = s.uir := rfl
@[simp] theorem State.reclaim_ustat (s : State) (i : BdIndex) : (s.reclaim i).ustat = s.ustat := rfl
@[simp] theorem State.reclaim_epen (s : State) (i : BdIndex) : (s.reclaim i).epen = s.epen := rfl
@[simp] theorem State.reclaim_addr (s : State) (i : BdIndex) : (s.reclaim i).addr = s.addr := rfl
@[simp] theorem State.reclaim_ephalt (s : State) (i : BdIndex) : (s.reclaim i).ephalt = s.ephalt := rfl
@[simp] theorem State.reclaim_moden (s : State) (i : BdIndex) : (s.reclaim i).moden = s.moden := rfl
@[simp] theorem State.reclaim_vbus (s : State) (i : BdIndex) : (s.reclaim i).vbus = s.vbus := rfl
@[simp] theorem State.reclaim_se0 (s : State) (i : BdIndex) : (s.reclaim i).se0 = s.se0 := rfl
@[simp] theorem State.reclaim_stage (s : State) (i : BdIndex) : (s.reclaim i).stage = s.stage := rfl
@[simp] theorem State.reclaim_remain (s : State) (i : BdIndex) : (s.reclaim i).remain = s.remain := rfl
@[simp] theorem State.reclaim_srcT (s : State) (i : BdIndex) : (s.reclaim i).srcT = s.srcT := rfl
@[simp] theorem State.reclaim_srcOff (s : State) (i : BdIndex) : (s.reclaim i).srcOff = s.srcOff := rfl
@[simp] theorem State.reclaim_handled (s : State) (i : BdIndex) : (s.reclaim i).handled = s.handled := rfl
@[simp] theorem State.reclaim_rxtot (s : State) (i : BdIndex) : (s.reclaim i).rxtot = s.rxtot := rfl
@[simp] theorem State.reclaim_setup (s : State) (i : BdIndex) : (s.reclaim i).setup = s.setup := rfl
@[simp] theorem State.reclaim_respBuf0 (s : State) (i : BdIndex) : (s.reclaim i).respBuf0 = s.respBuf0 := rfl
@[simp] theorem State.reclaim_respBuf1 (s : State) (i : BdIndex) : (s.reclaim i).respBuf1 = s.respBuf1 := rfl
@[simp] theorem State.reclaim_devstate (s : State) (i : BdIndex) : (s.reclaim i).devstate = s.devstate := rfl
@[simp] theorem State.reclaim_susp (s : State) (i : BdIndex) : (s.reclaim i).susp = s.susp := rfl
@[simp] theorem State.reclaim_rwu (s : State) (i : BdIndex) : (s.reclaim i).rwu = s.rwu := rfl
@[simp] theorem State.reclaim_selfpwr (s : State) (i : BdIndex) : (s.reclaim i).selfpwr = s.selfpwr := rfl
@[simp] theorem State.reclaim_config (s : State) (i : BdIndex) : (s.reclaim i).config = s.config := rfl
@[simp] theorem State.reclaim_paddr (s : State) (i : BdIndex) : (s.reclaim i).paddr = s.paddr := rfl
@[simp] theorem State.reclaim_apend (s : State) (i : BdIndex) : (s.reclaim i).apend = s.apend := rfl
@[simp] theorem State.reclaim_mem (s : State) (i : BdIndex) : (s.reclaim i).mem = s.mem := rfl
@[simp] theorem State.reclaim_draws (s : State) (i : BdIndex) : (s.reclaim i).draws = s.draws := rfl
@[simp] theorem State.reclaim_agenda (s : State) (i : BdIndex) : (s.reclaim i).agenda = s.agenda := rfl
@[simp] theorem State.reclaim_bdBus (s : State) (i : BdIndex) : (s.reclaim i).bdBus = s.bdBus := rfl
@[simp] theorem State.reclaim_resp (s : State) (i : BdIndex) : (s.reclaim i).resp = s.resp := rfl
@[simp] theorem State.reclaim_event (s : State) (i : BdIndex) : (s.reclaim i).event = s.event := rfl
@[simp] theorem State.reclaim_bdAnswer (s : State) (i : BdIndex) : (s.reclaim i).bdAnswer = s.bdAnswer := rfl

/-! ## FILL -/

@[simp] theorem State.fill_bds (s : State) (i : BdIndex) (b : List Byte) : (s.fill i b).bds = s.bds := rfl
@[simp] theorem State.fill_uir (s : State) (i : BdIndex) (b : List Byte) : (s.fill i b).uir = s.uir := rfl
@[simp] theorem State.fill_ustat (s : State) (i : BdIndex) (b : List Byte) : (s.fill i b).ustat = s.ustat := rfl
@[simp] theorem State.fill_epen (s : State) (i : BdIndex) (b : List Byte) : (s.fill i b).epen = s.epen := rfl
@[simp] theorem State.fill_addr (s : State) (i : BdIndex) (b : List Byte) : (s.fill i b).addr = s.addr := rfl
@[simp] theorem State.fill_ephalt (s : State) (i : BdIndex) (b : List Byte) : (s.fill i b).ephalt = s.ephalt := rfl
@[simp] theorem State.fill_moden (s : State) (i : BdIndex) (b : List Byte) : (s.fill i b).moden = s.moden := rfl
@[simp] theorem State.fill_vbus (s : State) (i : BdIndex) (b : List Byte) : (s.fill i b).vbus = s.vbus := rfl
@[simp] theorem State.fill_se0 (s : State) (i : BdIndex) (b : List Byte) : (s.fill i b).se0 = s.se0 := rfl
@[simp] theorem State.fill_stage (s : State) (i : BdIndex) (b : List Byte) : (s.fill i b).stage = s.stage := rfl
@[simp] theorem State.fill_remain (s : State) (i : BdIndex) (b : List Byte) : (s.fill i b).remain = s.remain := rfl
@[simp] theorem State.fill_srcT (s : State) (i : BdIndex) (b : List Byte) : (s.fill i b).srcT = s.srcT := rfl
@[simp] theorem State.fill_srcOff (s : State) (i : BdIndex) (b : List Byte) : (s.fill i b).srcOff = s.srcOff := rfl
@[simp] theorem State.fill_handled (s : State) (i : BdIndex) (b : List Byte) : (s.fill i b).handled = s.handled := rfl
@[simp] theorem State.fill_rxtot (s : State) (i : BdIndex) (b : List Byte) : (s.fill i b).rxtot = s.rxtot := rfl
@[simp] theorem State.fill_setup (s : State) (i : BdIndex) (b : List Byte) : (s.fill i b).setup = s.setup := rfl
@[simp] theorem State.fill_respBuf0 (s : State) (i : BdIndex) (b : List Byte) :
    (s.fill i b).respBuf0 = s.respBuf0 := rfl
@[simp] theorem State.fill_respBuf1 (s : State) (i : BdIndex) (b : List Byte) :
    (s.fill i b).respBuf1 = s.respBuf1 := rfl
@[simp] theorem State.fill_devstate (s : State) (i : BdIndex) (b : List Byte) :
    (s.fill i b).devstate = s.devstate := rfl
@[simp] theorem State.fill_susp (s : State) (i : BdIndex) (b : List Byte) : (s.fill i b).susp = s.susp := rfl
@[simp] theorem State.fill_rwu (s : State) (i : BdIndex) (b : List Byte) : (s.fill i b).rwu = s.rwu := rfl
@[simp] theorem State.fill_selfpwr (s : State) (i : BdIndex) (b : List Byte) : (s.fill i b).selfpwr = s.selfpwr := rfl
@[simp] theorem State.fill_config (s : State) (i : BdIndex) (b : List Byte) : (s.fill i b).config = s.config := rfl
@[simp] theorem State.fill_paddr (s : State) (i : BdIndex) (b : List Byte) : (s.fill i b).paddr = s.paddr := rfl
@[simp] theorem State.fill_apend (s : State) (i : BdIndex) (b : List Byte) : (s.fill i b).apend = s.apend := rfl
@[simp] theorem State.fill_mem (s : State) (i : BdIndex) (b : List Byte) :
    (s.fill i b).mem = s.mem.write (baseOf i) (b.take (maxPkt i)) := rfl
@[simp] theorem State.fill_draws (s : State) (i : BdIndex) (b : List Byte) : (s.fill i b).draws = s.draws := rfl
@[simp] theorem State.fill_agenda (s : State) (i : BdIndex) (b : List Byte) : (s.fill i b).agenda = s.agenda := rfl
@[simp] theorem State.fill_bdBus (s : State) (i : BdIndex) (b : List Byte) : (s.fill i b).bdBus = s.bdBus := rfl
@[simp] theorem State.fill_resp (s : State) (i : BdIndex) (b : List Byte) : (s.fill i b).resp = s.resp := rfl
@[simp] theorem State.fill_event (s : State) (i : BdIndex) (b : List Byte) : (s.fill i b).event = s.event := rfl
@[simp] theorem State.fill_bdAnswer (s : State) (i : BdIndex) (b : List Byte) :
    (s.fill i b).bdAnswer = s.bdAnswer := rfl

/-! ## Answering a command -/

@[simp] theorem State.answer_bds (s : State) (r : BitVec 32) (q : List Byte) : (s.answer r q).bds = s.bds := rfl
@[simp] theorem State.answer_uir (s : State) (r : BitVec 32) (q : List Byte) : (s.answer r q).uir = s.uir := rfl
@[simp] theorem State.answer_ustat (s : State) (r : BitVec 32) (q : List Byte) : (s.answer r q).ustat = s.ustat := rfl
@[simp] theorem State.answer_epen (s : State) (r : BitVec 32) (q : List Byte) : (s.answer r q).epen = s.epen := rfl
@[simp] theorem State.answer_addr (s : State) (r : BitVec 32) (q : List Byte) : (s.answer r q).addr = s.addr := rfl
@[simp] theorem State.answer_ephalt (s : State) (r : BitVec 32) (q : List Byte) :
    (s.answer r q).ephalt = s.ephalt := rfl
@[simp] theorem State.answer_moden (s : State) (r : BitVec 32) (q : List Byte) : (s.answer r q).moden = s.moden := rfl
@[simp] theorem State.answer_vbus (s : State) (r : BitVec 32) (q : List Byte) : (s.answer r q).vbus = s.vbus := rfl
@[simp] theorem State.answer_se0 (s : State) (r : BitVec 32) (q : List Byte) : (s.answer r q).se0 = s.se0 := rfl
@[simp] theorem State.answer_stage (s : State) (r : BitVec 32) (q : List Byte) : (s.answer r q).stage = s.stage := rfl
@[simp] theorem State.answer_remain (s : State) (r : BitVec 32) (q : List Byte) :
    (s.answer r q).remain = s.remain := rfl
@[simp] theorem State.answer_srcT (s : State) (r : BitVec 32) (q : List Byte) : (s.answer r q).srcT = s.srcT := rfl
@[simp] theorem State.answer_srcOff (s : State) (r : BitVec 32) (q : List Byte) :
    (s.answer r q).srcOff = s.srcOff := rfl
@[simp] theorem State.answer_handled (s : State) (r : BitVec 32) (q : List Byte) :
    (s.answer r q).handled = s.handled := rfl
@[simp] theorem State.answer_rxtot (s : State) (r : BitVec 32) (q : List Byte) : (s.answer r q).rxtot = s.rxtot := rfl
@[simp] theorem State.answer_setup (s : State) (r : BitVec 32) (q : List Byte) : (s.answer r q).setup = s.setup := rfl
@[simp] theorem State.answer_respBuf0 (s : State) (r : BitVec 32) (q : List Byte) :
    (s.answer r q).respBuf0 = s.respBuf0 := rfl
@[simp] theorem State.answer_respBuf1 (s : State) (r : BitVec 32) (q : List Byte) :
    (s.answer r q).respBuf1 = s.respBuf1 := rfl
@[simp] theorem State.answer_devstate (s : State) (r : BitVec 32) (q : List Byte) :
    (s.answer r q).devstate = s.devstate := rfl
@[simp] theorem State.answer_susp (s : State) (r : BitVec 32) (q : List Byte) : (s.answer r q).susp = s.susp := rfl
@[simp] theorem State.answer_rwu (s : State) (r : BitVec 32) (q : List Byte) : (s.answer r q).rwu = s.rwu := rfl
@[simp] theorem State.answer_selfpwr (s : State) (r : BitVec 32) (q : List Byte) :
    (s.answer r q).selfpwr = s.selfpwr := rfl
@[simp] theorem State.answer_config (s : State) (r : BitVec 32) (q : List Byte) :
    (s.answer r q).config = s.config := rfl
@[simp] theorem State.answer_paddr (s : State) (r : BitVec 32) (q : List Byte) : (s.answer r q).paddr = s.paddr := rfl
@[simp] theorem State.answer_apend (s : State) (r : BitVec 32) (q : List Byte) : (s.answer r q).apend = s.apend := rfl
@[simp] theorem State.answer_mem (s : State) (r : BitVec 32) (q : List Byte) : (s.answer r q).mem = s.mem := rfl
@[simp] theorem State.answer_draws (s : State) (r : BitVec 32) (q : List Byte) : (s.answer r q).draws = s.draws := rfl
@[simp] theorem State.answer_agenda (s : State) (r : BitVec 32) (q : List Byte) :
    (s.answer r q).agenda = s.agenda := rfl
@[simp] theorem State.answer_bdBus (s : State) (r : BitVec 32) (q : List Byte) : (s.answer r q).bdBus = s.bdBus := rfl
@[simp] theorem State.answer_resp (s : State) (r : BitVec 32) (q : List Byte) :
    (s.answer r q).resp = some { r := r, q := q } := rfl
@[simp] theorem State.answer_event (s : State) (r : BitVec 32) (q : List Byte) : (s.answer r q).event = s.event := rfl
@[simp] theorem State.answer_bdAnswer (s : State) (r : BitVec 32) (q : List Byte) :
    (s.answer r q).bdAnswer = s.bdAnswer := rfl

/-! ## Emitting an event -/

@[simp] theorem State.emit_bds (s : State) (e : Event) : (s.emit e).bds = s.bds := rfl
@[simp] theorem State.emit_uir (s : State) (e : Event) : (s.emit e).uir = s.uir := rfl
@[simp] theorem State.emit_ustat (s : State) (e : Event) : (s.emit e).ustat = s.ustat := rfl
@[simp] theorem State.emit_epen (s : State) (e : Event) : (s.emit e).epen = s.epen := rfl
@[simp] theorem State.emit_addr (s : State) (e : Event) : (s.emit e).addr = s.addr := rfl
@[simp] theorem State.emit_ephalt (s : State) (e : Event) : (s.emit e).ephalt = s.ephalt := rfl
@[simp] theorem State.emit_moden (s : State) (e : Event) : (s.emit e).moden = s.moden := rfl
@[simp] theorem State.emit_vbus (s : State) (e : Event) : (s.emit e).vbus = s.vbus := rfl
@[simp] theorem State.emit_se0 (s : State) (e : Event) : (s.emit e).se0 = s.se0 := rfl
@[simp] theorem State.emit_stage (s : State) (e : Event) : (s.emit e).stage = s.stage := rfl
@[simp] theorem State.emit_remain (s : State) (e : Event) : (s.emit e).remain = s.remain := rfl
@[simp] theorem State.emit_srcT (s : State) (e : Event) : (s.emit e).srcT = s.srcT := rfl
@[simp] theorem State.emit_srcOff (s : State) (e : Event) : (s.emit e).srcOff = s.srcOff := rfl
@[simp] theorem State.emit_handled (s : State) (e : Event) : (s.emit e).handled = s.handled := rfl
@[simp] theorem State.emit_rxtot (s : State) (e : Event) : (s.emit e).rxtot = s.rxtot := rfl
@[simp] theorem State.emit_setup (s : State) (e : Event) : (s.emit e).setup = s.setup := rfl
@[simp] theorem State.emit_respBuf0 (s : State) (e : Event) : (s.emit e).respBuf0 = s.respBuf0 := rfl
@[simp] theorem State.emit_respBuf1 (s : State) (e : Event) : (s.emit e).respBuf1 = s.respBuf1 := rfl
@[simp] theorem State.emit_devstate (s : State) (e : Event) : (s.emit e).devstate = s.devstate := rfl
@[simp] theorem State.emit_susp (s : State) (e : Event) : (s.emit e).susp = s.susp := rfl
@[simp] theorem State.emit_rwu (s : State) (e : Event) : (s.emit e).rwu = s.rwu := rfl
@[simp] theorem State.emit_selfpwr (s : State) (e : Event) : (s.emit e).selfpwr = s.selfpwr := rfl
@[simp] theorem State.emit_config (s : State) (e : Event) : (s.emit e).config = s.config := rfl
@[simp] theorem State.emit_paddr (s : State) (e : Event) : (s.emit e).paddr = s.paddr := rfl
@[simp] theorem State.emit_apend (s : State) (e : Event) : (s.emit e).apend = s.apend := rfl
@[simp] theorem State.emit_mem (s : State) (e : Event) : (s.emit e).mem = s.mem := rfl
@[simp] theorem State.emit_draws (s : State) (e : Event) : (s.emit e).draws = s.draws := rfl
@[simp] theorem State.emit_agenda (s : State) (e : Event) : (s.emit e).agenda = s.agenda := rfl
@[simp] theorem State.emit_bdBus (s : State) (e : Event) : (s.emit e).bdBus = s.bdBus := rfl
@[simp] theorem State.emit_resp (s : State) (e : Event) : (s.emit e).resp = s.resp := rfl
@[simp] theorem State.emit_event (s : State) (e : Event) : (s.emit e).event = some e := rfl
@[simp] theorem State.emit_bdAnswer (s : State) (e : Event) : (s.emit e).bdAnswer = s.bdAnswer := rfl

/-! ## Completing a transaction -/

@[simp] theorem State.complete_bds (s : State) (i : BdIndex) (u : Byte) :
    (s.complete i u).bds = s.bds.set i { s.bd i with own := .sw } := rfl
@[simp] theorem State.complete_uir (s : State) (i : BdIndex) (u : Byte) :
    (s.complete i u).uir = s.uir ||| bitMask uirTRN := rfl
@[simp] theorem State.complete_ustat (s : State) (i : BdIndex) (u : Byte) : (s.complete i u).ustat = u := rfl
@[simp] theorem State.complete_epen (s : State) (i : BdIndex) (u : Byte) : (s.complete i u).epen = s.epen := rfl
@[simp] theorem State.complete_addr (s : State) (i : BdIndex) (u : Byte) : (s.complete i u).addr = s.addr := rfl
@[simp] theorem State.complete_ephalt (s : State) (i : BdIndex) (u : Byte) : (s.complete i u).ephalt = s.ephalt := rfl
@[simp] theorem State.complete_moden (s : State) (i : BdIndex) (u : Byte) : (s.complete i u).moden = s.moden := rfl
@[simp] theorem State.complete_vbus (s : State) (i : BdIndex) (u : Byte) : (s.complete i u).vbus = s.vbus := rfl
@[simp] theorem State.complete_se0 (s : State) (i : BdIndex) (u : Byte) : (s.complete i u).se0 = s.se0 := rfl
@[simp] theorem State.complete_stage (s : State) (i : BdIndex) (u : Byte) : (s.complete i u).stage = s.stage := rfl
@[simp] theorem State.complete_remain (s : State) (i : BdIndex) (u : Byte) : (s.complete i u).remain = s.remain := rfl
@[simp] theorem State.complete_srcT (s : State) (i : BdIndex) (u : Byte) : (s.complete i u).srcT = s.srcT := rfl
@[simp] theorem State.complete_srcOff (s : State) (i : BdIndex) (u : Byte) : (s.complete i u).srcOff = s.srcOff := rfl
@[simp] theorem State.complete_handled (s : State) (i : BdIndex) (u : Byte) :
    (s.complete i u).handled = s.handled := rfl
@[simp] theorem State.complete_rxtot (s : State) (i : BdIndex) (u : Byte) : (s.complete i u).rxtot = s.rxtot := rfl
@[simp] theorem State.complete_setup (s : State) (i : BdIndex) (u : Byte) : (s.complete i u).setup = s.setup := rfl
@[simp] theorem State.complete_respBuf0 (s : State) (i : BdIndex) (u : Byte) :
    (s.complete i u).respBuf0 = s.respBuf0 := rfl
@[simp] theorem State.complete_respBuf1 (s : State) (i : BdIndex) (u : Byte) :
    (s.complete i u).respBuf1 = s.respBuf1 := rfl
@[simp] theorem State.complete_devstate (s : State) (i : BdIndex) (u : Byte) :
    (s.complete i u).devstate = s.devstate := rfl
@[simp] theorem State.complete_susp (s : State) (i : BdIndex) (u : Byte) : (s.complete i u).susp = s.susp := rfl
@[simp] theorem State.complete_rwu (s : State) (i : BdIndex) (u : Byte) : (s.complete i u).rwu = s.rwu := rfl
@[simp] theorem State.complete_selfpwr (s : State) (i : BdIndex) (u : Byte) :
    (s.complete i u).selfpwr = s.selfpwr := rfl
@[simp] theorem State.complete_config (s : State) (i : BdIndex) (u : Byte) : (s.complete i u).config = s.config := rfl
@[simp] theorem State.complete_paddr (s : State) (i : BdIndex) (u : Byte) : (s.complete i u).paddr = s.paddr := rfl
@[simp] theorem State.complete_apend (s : State) (i : BdIndex) (u : Byte) : (s.complete i u).apend = s.apend := rfl
@[simp] theorem State.complete_mem (s : State) (i : BdIndex) (u : Byte) : (s.complete i u).mem = s.mem := rfl
@[simp] theorem State.complete_draws (s : State) (i : BdIndex) (u : Byte) : (s.complete i u).draws = s.draws := rfl
@[simp] theorem State.complete_agenda (s : State) (i : BdIndex) (u : Byte) : (s.complete i u).agenda = s.agenda := rfl
@[simp] theorem State.complete_bdBus (s : State) (i : BdIndex) (u : Byte) : (s.complete i u).bdBus = s.bdBus := rfl
@[simp] theorem State.complete_resp (s : State) (i : BdIndex) (u : Byte) : (s.complete i u).resp = s.resp := rfl
@[simp] theorem State.complete_event (s : State) (i : BdIndex) (u : Byte) : (s.complete i u).event = s.event := rfl
@[simp] theorem State.complete_bdAnswer (s : State) (i : BdIndex) (u : Byte) :
    (s.complete i u).bdAnswer = s.bdAnswer := rfl

/-! ## Writing the device record back -/

@[simp] theorem State.withRec_bds (s : State) (d : DevRec) : (s.withRec d).bds = s.bds := rfl
@[simp] theorem State.withRec_uir (s : State) (d : DevRec) : (s.withRec d).uir = s.uir := rfl
@[simp] theorem State.withRec_ustat (s : State) (d : DevRec) : (s.withRec d).ustat = s.ustat := rfl
@[simp] theorem State.withRec_epen (s : State) (d : DevRec) : (s.withRec d).epen = s.epen := rfl
@[simp] theorem State.withRec_addr (s : State) (d : DevRec) : (s.withRec d).addr = s.addr := rfl
@[simp] theorem State.withRec_ephalt (s : State) (d : DevRec) : (s.withRec d).ephalt = d.ephalt := rfl
@[simp] theorem State.withRec_moden (s : State) (d : DevRec) : (s.withRec d).moden = s.moden := rfl
@[simp] theorem State.withRec_vbus (s : State) (d : DevRec) : (s.withRec d).vbus = s.vbus := rfl
@[simp] theorem State.withRec_se0 (s : State) (d : DevRec) : (s.withRec d).se0 = s.se0 := rfl
@[simp] theorem State.withRec_stage (s : State) (d : DevRec) : (s.withRec d).stage = s.stage := rfl
@[simp] theorem State.withRec_remain (s : State) (d : DevRec) : (s.withRec d).remain = s.remain := rfl
@[simp] theorem State.withRec_srcT (s : State) (d : DevRec) : (s.withRec d).srcT = s.srcT := rfl
@[simp] theorem State.withRec_srcOff (s : State) (d : DevRec) : (s.withRec d).srcOff = s.srcOff := rfl
@[simp] theorem State.withRec_handled (s : State) (d : DevRec) : (s.withRec d).handled = s.handled := rfl
@[simp] theorem State.withRec_rxtot (s : State) (d : DevRec) : (s.withRec d).rxtot = s.rxtot := rfl
@[simp] theorem State.withRec_setup (s : State) (d : DevRec) : (s.withRec d).setup = s.setup := rfl
@[simp] theorem State.withRec_respBuf0 (s : State) (d : DevRec) : (s.withRec d).respBuf0 = s.respBuf0 := rfl
@[simp] theorem State.withRec_respBuf1 (s : State) (d : DevRec) : (s.withRec d).respBuf1 = s.respBuf1 := rfl
@[simp] theorem State.withRec_devstate (s : State) (d : DevRec) : (s.withRec d).devstate = d.devstate := rfl
@[simp] theorem State.withRec_susp (s : State) (d : DevRec) : (s.withRec d).susp = s.susp := rfl
@[simp] theorem State.withRec_rwu (s : State) (d : DevRec) : (s.withRec d).rwu = d.rwu := rfl
@[simp] theorem State.withRec_selfpwr (s : State) (d : DevRec) : (s.withRec d).selfpwr = s.selfpwr := rfl
@[simp] theorem State.withRec_config (s : State) (d : DevRec) : (s.withRec d).config = d.config := rfl
@[simp] theorem State.withRec_paddr (s : State) (d : DevRec) : (s.withRec d).paddr = d.paddr := rfl
@[simp] theorem State.withRec_apend (s : State) (d : DevRec) : (s.withRec d).apend = d.apend := rfl
@[simp] theorem State.withRec_mem (s : State) (d : DevRec) : (s.withRec d).mem = s.mem := rfl
@[simp] theorem State.withRec_draws (s : State) (d : DevRec) : (s.withRec d).draws = s.draws := rfl
@[simp] theorem State.withRec_agenda (s : State) (d : DevRec) : (s.withRec d).agenda = s.agenda := rfl
@[simp] theorem State.withRec_bdBus (s : State) (d : DevRec) : (s.withRec d).bdBus = s.bdBus := rfl
@[simp] theorem State.withRec_resp (s : State) (d : DevRec) : (s.withRec d).resp = s.resp := rfl
@[simp] theorem State.withRec_event (s : State) (d : DevRec) : (s.withRec d).event = s.event := rfl
@[simp] theorem State.withRec_bdAnswer (s : State) (d : DevRec) : (s.withRec d).bdAnswer = s.bdAnswer := rfl

/-! ## Filling `RESPBUF` -/

@[simp] theorem State.fillRespBuf_bds (s : State) (o : Option (Byte × Byte)) :
    (s.fillRespBuf o).bds = s.bds := by cases o <;> rfl
@[simp] theorem State.fillRespBuf_uir (s : State) (o : Option (Byte × Byte)) :
    (s.fillRespBuf o).uir = s.uir := by cases o <;> rfl
@[simp] theorem State.fillRespBuf_ustat (s : State) (o : Option (Byte × Byte)) :
    (s.fillRespBuf o).ustat = s.ustat := by cases o <;> rfl
@[simp] theorem State.fillRespBuf_epen (s : State) (o : Option (Byte × Byte)) :
    (s.fillRespBuf o).epen = s.epen := by cases o <;> rfl
@[simp] theorem State.fillRespBuf_addr (s : State) (o : Option (Byte × Byte)) :
    (s.fillRespBuf o).addr = s.addr := by cases o <;> rfl
@[simp] theorem State.fillRespBuf_ephalt (s : State) (o : Option (Byte × Byte)) :
    (s.fillRespBuf o).ephalt = s.ephalt := by cases o <;> rfl
@[simp] theorem State.fillRespBuf_moden (s : State) (o : Option (Byte × Byte)) :
    (s.fillRespBuf o).moden = s.moden := by cases o <;> rfl
@[simp] theorem State.fillRespBuf_vbus (s : State) (o : Option (Byte × Byte)) :
    (s.fillRespBuf o).vbus = s.vbus := by cases o <;> rfl
@[simp] theorem State.fillRespBuf_se0 (s : State) (o : Option (Byte × Byte)) :
    (s.fillRespBuf o).se0 = s.se0 := by cases o <;> rfl
@[simp] theorem State.fillRespBuf_stage (s : State) (o : Option (Byte × Byte)) :
    (s.fillRespBuf o).stage = s.stage := by cases o <;> rfl
@[simp] theorem State.fillRespBuf_remain (s : State) (o : Option (Byte × Byte)) :
    (s.fillRespBuf o).remain = s.remain := by cases o <;> rfl
@[simp] theorem State.fillRespBuf_srcT (s : State) (o : Option (Byte × Byte)) :
    (s.fillRespBuf o).srcT = s.srcT := by cases o <;> rfl
@[simp] theorem State.fillRespBuf_srcOff (s : State) (o : Option (Byte × Byte)) :
    (s.fillRespBuf o).srcOff = s.srcOff := by cases o <;> rfl
@[simp] theorem State.fillRespBuf_handled (s : State) (o : Option (Byte × Byte)) :
    (s.fillRespBuf o).handled = s.handled := by cases o <;> rfl
@[simp] theorem State.fillRespBuf_rxtot (s : State) (o : Option (Byte × Byte)) :
    (s.fillRespBuf o).rxtot = s.rxtot := by cases o <;> rfl
@[simp] theorem State.fillRespBuf_setup (s : State) (o : Option (Byte × Byte)) :
    (s.fillRespBuf o).setup = s.setup := by cases o <;> rfl
@[simp] theorem State.fillRespBuf_devstate (s : State) (o : Option (Byte × Byte)) :
    (s.fillRespBuf o).devstate = s.devstate := by cases o <;> rfl
@[simp] theorem State.fillRespBuf_susp (s : State) (o : Option (Byte × Byte)) :
    (s.fillRespBuf o).susp = s.susp := by cases o <;> rfl
@[simp] theorem State.fillRespBuf_rwu (s : State) (o : Option (Byte × Byte)) :
    (s.fillRespBuf o).rwu = s.rwu := by cases o <;> rfl
@[simp] theorem State.fillRespBuf_selfpwr (s : State) (o : Option (Byte × Byte)) :
    (s.fillRespBuf o).selfpwr = s.selfpwr := by cases o <;> rfl
@[simp] theorem State.fillRespBuf_config (s : State) (o : Option (Byte × Byte)) :
    (s.fillRespBuf o).config = s.config := by cases o <;> rfl
@[simp] theorem State.fillRespBuf_paddr (s : State) (o : Option (Byte × Byte)) :
    (s.fillRespBuf o).paddr = s.paddr := by cases o <;> rfl
@[simp] theorem State.fillRespBuf_apend (s : State) (o : Option (Byte × Byte)) :
    (s.fillRespBuf o).apend = s.apend := by cases o <;> rfl
@[simp] theorem State.fillRespBuf_mem (s : State) (o : Option (Byte × Byte)) :
    (s.fillRespBuf o).mem = s.mem := by cases o <;> rfl
@[simp] theorem State.fillRespBuf_draws (s : State) (o : Option (Byte × Byte)) :
    (s.fillRespBuf o).draws = s.draws := by cases o <;> rfl
@[simp] theorem State.fillRespBuf_agenda (s : State) (o : Option (Byte × Byte)) :
    (s.fillRespBuf o).agenda = s.agenda := by cases o <;> rfl
@[simp] theorem State.fillRespBuf_bdBus (s : State) (o : Option (Byte × Byte)) :
    (s.fillRespBuf o).bdBus = s.bdBus := by cases o <;> rfl
@[simp] theorem State.fillRespBuf_resp (s : State) (o : Option (Byte × Byte)) :
    (s.fillRespBuf o).resp = s.resp := by cases o <;> rfl
@[simp] theorem State.fillRespBuf_event (s : State) (o : Option (Byte × Byte)) :
    (s.fillRespBuf o).event = s.event := by cases o <;> rfl
@[simp] theorem State.fillRespBuf_bdAnswer (s : State) (o : Option (Byte × Byte)) :
    (s.fillRespBuf o).bdAnswer = s.bdAnswer := by cases o <;> rfl

end Sys2Proof.Machine
end

