-- ==== Sys2Proof/Laws/Flags.lean ====
section
/-! SUPPORT. The bits of `UIR` under set and clear, the fields of the PUMPIN view, and what each branch test of R281
says in the names of the registers. -/

namespace Sys2Proof.Machine

theorem uirBit_clearUir_same (s : State) (k : Nat) : (s.clearUir k).uirBit k = false := by
  simp [State.uirBit, bitMask, BitVec.getLsbD_twoPow]

theorem uirBit_clearUir_other (s : State) {k j : Nat} (h : j ≠ k) : (s.clearUir k).uirBit j = s.uirBit j := by
  simp only [State.uirBit, State.clearUir_uir, bitMask, BitVec.getLsbD_and, BitVec.getLsbD_not, BitVec.getLsbD_twoPow]
  by_cases h8 : j < 8
  · simp [h8, Ne.symm h]
  · simp [BitVec.getLsbD_of_ge s.uir j (by omega)]

theorem uirBit_setUir_same (s : State) {k : Nat} (h : k < 8) : (s.setUir k).uirBit k = true := by
  simp [State.uirBit, bitMask, h]

theorem uirBit_setUir_other (s : State) {k j : Nat} (h : j ≠ k) : (s.setUir k).uirBit j = s.uirBit j := by
  simp [State.uirBit, bitMask, BitVec.getLsbD_twoPow, Ne.symm h]

/-! ## The view (R113) -/

theorem view_uirBit (s : State) {k : Nat} (h : k < 8) : s.view.getLsbD k = s.uirBit k := by
  simp only [State.view, BitVec.getLsbD_append]
  simp [State.uirBit, h]

theorem view_vbus (s : State) : s.view.getLsbD 8 = s.vbus := by
  simp only [State.view, BitVec.getLsbD_append]
  simp

theorem view_se0 (s : State) : s.view.getLsbD 9 = s.se0 := by
  simp only [State.view, BitVec.getLsbD_append]
  simp

theorem view_moden (s : State) : s.view.getLsbD 10 = s.moden := by
  simp only [State.view, BitVec.getLsbD_append]
  simp

theorem view_devstate (s : State) : s.view.extractLsb' 12 3 = s.devstate := by
  ext k hk
  have : k = 0 ∨ k = 1 ∨ k = 2 := by omega
  simp only [BitVec.getElem_extractLsb', State.view, BitVec.getLsbD_append]
  rcases this with rfl | rfl | rfl <;> simp

/-! ## The branch tests (R281) -/

/-- A flag's branch tests that flag. -/
theorem test_flag_iff (s : State) {k : Nat} (h : k < 8) :
    s.view &&& BitVec.twoPow 16 k = BitVec.twoPow 16 k ↔ s.uirBit k = true := by
  rw [← view_uirBit s h]
  constructor
  · intro e
    have e := congrArg (·.getLsbD k) e
    simpa [BitVec.getLsbD_twoPow, show k < 16 by omega] using e
  · intro e
    ext j hj
    simp only [BitVec.getElem_and, BitVec.getElem_twoPow]
    by_cases hjk : j = k
    · subst hjk
      simpa [BitVec.getLsbD_eq_getElem hj] using e
    · simp [hjk]

/-- Sixteen bits, one by one. -/
theorem forall_lt_16 {P : Nat → Prop} (h : ∀ j : Fin 16, P j.val) : ∀ j, j < 16 → P j := fun j hj => h ⟨j, hj⟩

/-- A masked view is a value exactly when its bits under the mask are the value's. -/
theorem masked_eq_iff {v m x : BitVec 16} (hx : x &&& m = x) :
    v &&& m = x ↔ ∀ j, j < 16 → m.getLsbD j = true → v.getLsbD j = x.getLsbD j := by
  constructor
  · rintro rfl j _ hm
    simp [hm]
  · intro h
    apply BitVec.eq_of_getLsbD_eq
    intro j hj
    have hxj := congrArg (·.getLsbD j) hx
    simp only [BitVec.getLsbD_and] at hxj ⊢
    cases hm : m.getLsbD j
    · rw [hm, Bool.and_false] at hxj
      simp [← hxj]
    · rw [Bool.and_true]
      exact h j hj hm

theorem devstate_bits (s : State) (d : BitVec 3) :
    s.devstate = d ↔
      s.view.getLsbD 12 = d.getLsbD 0 ∧ s.view.getLsbD 13 = d.getLsbD 1 ∧ s.view.getLsbD 14 = d.getLsbD 2 := by
  have bits (x y : BitVec 3) :
      x = y ↔ x.getLsbD 0 = y.getLsbD 0 ∧ x.getLsbD 1 = y.getLsbD 1 ∧ x.getLsbD 2 = y.getLsbD 2 := by
    revert x y
    decide
  rw [← view_devstate s, bits]
  simp

/-- DETACH_BR's test (R284). -/
theorem test_detach_iff (s : State) : s.view &&& 0x0500 = 0x0400 ↔ s.moden = true ∧ s.vbus = false := by
  rw [masked_eq_iff (by decide), ← view_moden, ← view_vbus]
  constructor
  · intro h
    exact ⟨h 10 (by decide) (by decide), h 8 (by decide) (by decide)⟩
  · rintro ⟨h1, h2⟩
    apply forall_lt_16
    intro j
    fin_cases j <;> first
      | (intro hm; exact absurd hm (by decide))
      | (intro _; exact h1)
      | (intro _; exact h2)

/-- ATTACH_BR's test (R282). -/
theorem test_attach_iff (s : State) :
    s.view &&& 0x7500 = 0x0100 ↔ s.devstate = 0 ∧ s.moden = false ∧ s.vbus = true := by
  rw [masked_eq_iff (by decide), devstate_bits, ← view_moden, ← view_vbus]
  constructor
  · intro h
    exact ⟨⟨h 12 (by decide) (by decide), h 13 (by decide) (by decide), h 14 (by decide) (by decide)⟩,
      h 10 (by decide) (by decide), h 8 (by decide) (by decide)⟩
  · rintro ⟨⟨h1, h2, h3⟩, h4, h5⟩
    apply forall_lt_16
    intro j
    fin_cases j <;> first
      | (intro hm; exact absurd hm (by decide))
      | (intro _; exact h1)
      | (intro _; exact h2)
      | (intro _; exact h3)
      | (intro _; exact h4)
      | (intro _; exact h5)

/-- POWERED_BR's test (R283). -/
theorem test_powered_iff (s : State) :
    s.view &&& 0x7300 = 0x1100 ↔ s.devstate = 1 ∧ s.se0 = false ∧ s.vbus = true := by
  rw [masked_eq_iff (by decide), devstate_bits, ← view_se0, ← view_vbus]
  constructor
  · intro h
    exact ⟨⟨h 12 (by decide) (by decide), h 13 (by decide) (by decide), h 14 (by decide) (by decide)⟩,
      h 9 (by decide) (by decide), h 8 (by decide) (by decide)⟩
  · rintro ⟨⟨h1, h2, h3⟩, h4, h5⟩
    apply forall_lt_16
    intro j
    fin_cases j <;> first
      | (intro hm; exact absurd hm (by decide))
      | (intro _; exact h1)
      | (intro _; exact h2)
      | (intro _; exact h3)
      | (intro _; exact h4)
      | (intro _; exact h5)

end Sys2Proof.Machine
end

