-- ==== Sys2Proof/Laws/Memory.lean ====
section
/-! SUPPORT. Buffer RAM: a write is read back, a write leaves every other byte alone, and every operation keeps the
canonical form (20_memory.md R83, R84). -/

namespace Sys2Proof.Machine

theorem Memory.lookup_insert_same (m : Memory) (a : Nat) (b : Byte) : (m.insert a b).lookup a = some b := by
  induction m with
  | nil => simp [Memory.insert, Memory.lookup]
  | cons c m ih =>
    obtain ⟨k, v⟩ := c
    simp only [Memory.insert]
    split
    · simp [Memory.lookup]
    · split
      · simp [Memory.lookup]
      · rename_i h1 h2
        have : k ≠ a := fun h => h2 h.symm
        simp [Memory.lookup, this, ih]

theorem Memory.lookup_insert_other (m : Memory) (a c : Nat) (b : Byte) (h : c ≠ a) :
    (m.insert a b).lookup c = m.lookup c := by
  induction m with
  | nil => simp [Memory.insert, Memory.lookup, h.symm]
  | cons p m ih =>
    obtain ⟨k, v⟩ := p
    simp only [Memory.insert]
    split
    · simp [Memory.lookup, h.symm]
    · split
      · rename_i h1 h2
        subst h2
        simp [Memory.lookup, h.symm]
      · simp [Memory.lookup, ih]

theorem Memory.wfFrom_mono {m : Memory} {lo hi : Nat} (h : lo ≤ hi) (hm : Memory.wfFrom hi m = true) :
    Memory.wfFrom lo m = true := by
  cases m with
  | nil => rfl
  | cons p m =>
    obtain ⟨k, v⟩ := p
    simp only [Memory.wfFrom, Bool.and_eq_true, decide_eq_true_eq] at hm ⊢
    exact ⟨⟨by omega, hm.1.2⟩, hm.2⟩

theorem Memory.wfFrom_insert {m : Memory} {lo a : Nat} (b : Byte) (hlo : lo ≤ a) (ha : a < 256)
    (hm : Memory.wfFrom lo m = true) : Memory.wfFrom lo (m.insert a b) = true := by
  induction m generalizing lo with
  | nil => simp [Memory.insert, Memory.wfFrom, hlo, ha]
  | cons p m ih =>
    obtain ⟨k, v⟩ := p
    simp only [Memory.wfFrom, Bool.and_eq_true, decide_eq_true_eq] at hm
    simp only [Memory.insert]
    split
    · simp only [Memory.wfFrom, Bool.and_eq_true, decide_eq_true_eq]
      exact ⟨⟨hlo, ha⟩, ⟨by omega, hm.1.2⟩, hm.2⟩
    · split
      · rename_i h1 h2
        subst h2
        simp only [Memory.wfFrom, Bool.and_eq_true, decide_eq_true_eq]
        exact ⟨⟨hlo, ha⟩, hm.2⟩
      · simp only [Memory.wfFrom, Bool.and_eq_true, decide_eq_true_eq]
        exact ⟨hm.1, ih (by omega) hm.2⟩

/-- One stored byte keeps the canonical form. -/
theorem Memory.wf_insert {m : Memory} {a : Nat} (b : Byte) (ha : a < 256) (hm : m.wf = true) :
    (m.insert a b).wf = true :=
  Memory.wfFrom_insert b (Nat.zero_le a) ha hm

/-- `BufWrite` keeps the canonical form. -/
theorem Memory.wf_write {m : Memory} (a : Byte) (bytes : List Byte) (hm : m.wf = true) :
    (m.write a bytes).wf = true := by
  induction bytes generalizing m a with
  | nil => exact hm
  | cons b bs ih => exact ih (a + 1) (Memory.wf_insert b a.isLt hm)

theorem Byte.toNat_succ {a : Byte} (h : a.toNat + 1 < 256) : (a + 1).toNat = a.toNat + 1 := by
  rw [BitVec.toNat_add]
  exact Nat.mod_eq_of_lt h

/-- `BufWrite` leaves every byte outside the bytes it stores as it was. -/
theorem Memory.lookup_write_outside (m : Memory) (a : Byte) (bytes : List Byte) (c : Nat)
    (hfit : a.toNat + bytes.length ≤ 256) (hc : c < a.toNat ∨ a.toNat + bytes.length ≤ c) :
    (m.write a bytes).lookup c = m.lookup c := by
  induction bytes generalizing m a with
  | nil => rfl
  | cons b bs ih =>
    simp only [List.length_cons] at hfit hc
    simp only [Memory.write]
    by_cases hlast : bs = []
    · subst hlast
      simp only [Memory.write]
      exact Memory.lookup_insert_other m _ c b (by simp at hc; omega)
    · have hpos : 0 < bs.length := List.length_pos_of_ne_nil hlast
      have ha := Byte.toNat_succ (a := a) (by omega)
      rw [ih _ (a + 1) (by omega) (by omega)]
      exact Memory.lookup_insert_other m _ c b (by omega)

/-- `BufWrite` stores `b[k]` at address `a + k` (R83). -/
theorem Memory.lookup_write_inside (m : Memory) (a : Byte) (bytes : List Byte) (k : Nat)
    (hfit : a.toNat + bytes.length ≤ 256) (hk : k < bytes.length) :
    (m.write a bytes).lookup (a.toNat + k) = some bytes[k] := by
  induction bytes generalizing m a k with
  | nil => simp at hk
  | cons b bs ih =>
    simp only [List.length_cons] at hfit hk
    simp only [Memory.write]
    cases k with
    | zero =>
      by_cases hlast : bs = []
      · subst hlast
        simpa [Memory.write] using Memory.lookup_insert_same m a.toNat b
      · have hpos : 0 < bs.length := List.length_pos_of_ne_nil hlast
        have ha := Byte.toNat_succ (a := a) (by omega)
        rw [Memory.lookup_write_outside _ (a + 1) bs _ (by omega) (by omega)]
        simpa using Memory.lookup_insert_same m a.toNat b
    | succ k =>
      have ha := Byte.toNat_succ (a := a) (by omega)
      have := ih (m.insert a.toNat b) (a + 1) k (by omega) (by omega)
      rw [ha] at this
      simpa [Nat.add_assoc, Nat.add_comm 1 k] using this

/-- A read of bytes that are all written takes no draw and answers them (R83). -/
theorem Memory.read_of_lookup (m : Memory) (draws : Nat) (a : Byte) (bytes : List Byte)
    (hfit : a.toNat + bytes.length ≤ 256)
    (h : ∀ k (hk : k < bytes.length), m.lookup (a.toNat + k) = some bytes[k]) :
    m.read draws a bytes.length = (bytes, draws) := by
  induction bytes generalizing a with
  | nil => rfl
  | cons b bs ih =>
    simp only [List.length_cons] at hfit h
    have h0 := h 0 (by omega)
    simp only [Nat.add_zero, List.getElem_cons_zero] at h0
    simp only [List.length_cons, Memory.read, h0]
    by_cases hlast : bs = []
    · subst hlast
      rfl
    · have hpos : 0 < bs.length := List.length_pos_of_ne_nil hlast
      have ha := Byte.toNat_succ (a := a) (by omega)
      have hrest := ih (a + 1) (by omega) (by
        intro k hk
        have := h (k + 1) (by omega)
        rw [ha]
        simpa [Nat.add_assoc, Nat.add_comm 1 k] using this)
      rw [hrest]

/-- Every read answers as many bytes as were asked for. -/
@[simp] theorem Memory.length_read (m : Memory) (draws : Nat) (a : Byte) (n : Nat) :
    (m.read draws a n).1.length = n := by
  induction n generalizing draws a with
  | zero => rfl
  | succ n ih =>
    simp only [Memory.read]
    split <;> simp [ih]

end Sys2Proof.Machine
end

