-- ==== Sys2Proof/Laws/Ops.lean ====
section
/-! SUPPORT. What each shared operation can do, said once: outcomes, the BD file, ARM, DRAIN, RECLAIM, the descriptor
ROM, the Data-In chunk and the end of a request. -/

namespace Sys2Proof.Machine

/-! ## Outcomes -/

theorem Result.andThen_eq_next {r : Result} {k : State → Result} {t : State} :
    r.andThen k = .next t ↔ ∃ s, r = .next s ∧ k s = .next t := by
  cases r <;> simp [Result.andThen]

theorem withDevState_eq_next {s t : State} {r : Result} :
    withDevState s r = .next t ↔ s.devOk = true ∧ r = .next t := by
  unfold withDevState
  split <;> simp_all

theorem withDevState_ok {s : State} (h : s.devOk = true) (r : Result) : withDevState s r = r := by
  simp [withDevState, h]

theorem withStage_eq_next {s t : State} {k : Stage → Result} :
    withStage s k = .next t ↔ ∃ st, s.stage? = some st ∧ k st = .next t := by
  unfold withStage
  split <;> simp_all

/-- The stage register as a case split: only the value 3 has no stage. -/
theorem State.stage?_cases (s : State) :
    (s.stage = 0 ∧ s.stage? = some .setup) ∨ (s.stage = 1 ∧ s.stage? = some .dataOut)
      ∨ (s.stage = 2 ∧ s.stage? = some .dataIn) ∨ (s.stage = 3 ∧ s.stage? = none) := by
  have h : ∀ b : BitVec 2, b = 0 ∨ b = 1 ∨ b = 2 ∨ b = 3 := by decide
  rcases h s.stage with h | h | h | h <;> simp [State.stage?, h]

theorem State.devOk_iff (s : State) : s.devOk = true ↔ s.devstate.toNat ≤ 5 := by
  simp [State.devOk, BitVec.le_def]

/-! ## The BD file -/

@[simp] theorem BdFile.get_set_same (f : BdFile) (i : BdIndex) (b : Bd) : (f.set i b).get i = b := by
  fin_cases i <;> rfl

theorem BdFile.get_set_other (f : BdFile) {i j : BdIndex} (b : Bd) (h : j ≠ i) : (f.set i b).get j = f.get j := by
  fin_cases i <;> fin_cases j <;> first | rfl | exact absurd rfl h

@[simp] theorem BdFile.set_get (f : BdFile) (i : BdIndex) : f.set i (f.get i) = f := by
  fin_cases i <;> rfl

/-- Two BD files with equal descriptors are equal. -/
theorem BdFile.ext_get {f g : BdFile} (h : ∀ i, f.get i = g.get i) : f = g := by
  obtain ⟨f0, f1, f2, f3, f4, f5⟩ := f
  obtain ⟨g0, g1, g2, g3, g4, g5⟩ := g
  have h0 := h 0
  have h1 := h 1
  have h2 := h 2
  have h3 := h 3
  have h4 := h 4
  have h5 := h 5
  simp only [BdFile.get] at h0 h1 h2 h3 h4 h5
  simp [h0, h1, h2, h3, h4, h5]

theorem maxPkt_le (i : BdIndex) : maxPkt i ≤ 64 := by
  fin_cases i <;> decide

theorem maxPkt_pos (i : BdIndex) : 0 < maxPkt i := by
  fin_cases i <;> decide

/-- A buffer does not pass the end of buffer RAM (R82). -/
theorem baseOf_fits (i : BdIndex) : (baseOf i).toNat + maxPkt i ≤ 256 := by
  fin_cases i <;> decide

theorem clampPkt_toNat (i : BdIndex) (n : Byte) : (clampPkt i n).toNat = min n.toNat (maxPkt i) := by
  have h := maxPkt_le i
  unfold clampPkt
  split
  · omega
  · rw [BitVec.toNat_ofNat]
    omega

/-! ## ARM, DRAIN, RECLAIM -/

/-- ARM on a descriptor the SIE owns changes no field of it (R162). -/
theorem Bd.armed_of_hw {b : Bd} (h : b.own = .hw) (i : BdIndex) (len : Byte) (t : Bool) : b.armed i len t = b := by
  simp [Bd.armed, h]

/-- ARM on a descriptor the block owns (R161). -/
theorem Bd.armed_of_sw {b : Bd} (h : b.own = .sw) (i : BdIndex) (len : Byte) (t : Bool) :
    b.armed i len t =
      { own := .hw, dts := xor b.dts t, stall := b.stall, count := clampPkt i len, addr := baseOf i } := by
  simp [Bd.armed, h]

@[simp] theorem Bd.armed_own (b : Bd) (i : BdIndex) (len : Byte) (t : Bool) : (b.armed i len t).own = .hw := by
  cases h : b.own <;> simp [Bd.armed, h]

@[simp] theorem Bd.armed_stall (b : Bd) (i : BdIndex) (len : Byte) (t : Bool) :
    (b.armed i len t).stall = b.stall := by
  cases h : b.own <;> simp [Bd.armed, h]

@[simp] theorem BdFile.get_arm_same (f : BdFile) (i : BdIndex) (len : Byte) (t : Bool) :
    (f.arm i len t).get i = (f.get i).armed i len t := by
  simp [BdFile.arm]

theorem BdFile.get_arm_other (f : BdFile) {i j : BdIndex} (len : Byte) (t : Bool) (h : j ≠ i) :
    (f.arm i len t).get j = f.get j := by
  simp [BdFile.arm, BdFile.get_set_other _ _ h]

/-- ARM on a descriptor the SIE owns changes nothing at all (R162). -/
theorem State.arm_of_hw {s : State} {i : BdIndex} (h : (s.bd i).own = .hw) (len : Byte) (t : Bool) :
    s.arm i len t = s := by
  unfold State.arm BdFile.arm
  rw [Bd.armed_of_hw (b := s.bds.get i) h, BdFile.set_get]
  rfl

theorem BdFile.get_reinitAll (f : BdFile) (i : BdIndex) : f.reinitAll.get i = (f.get i).reinit i false := by
  fin_cases i <;> rfl

theorem BdFile.get_reinitBulk_ep0 (f : BdFile) {i : BdIndex} (h : i.val < 2) : f.reinitBulk.get i = f.get i := by
  fin_cases i <;> first | rfl | simp at h

theorem BdFile.get_reinitBulk_bulk (f : BdFile) {i : BdIndex} (h : 2 ≤ i.val) :
    f.reinitBulk.get i = (f.get i).reinit i true := by
  fin_cases i <;> first | rfl | simp at h

/-! ## The descriptor ROM -/

/-- Every table has its size (R86). -/
theorem State.length_table {s : State} {t : BitVec 3} {b : List Byte} (h : s.table t = some b) : b.length = tlen t := by
  have ht : ∀ t : BitVec 3, t = 0 ∨ t = 1 ∨ t = 2 ∨ t = 3 ∨ t = 4 ∨ t = 5 ∨ t = 6 ∨ t = 7 := by decide
  rcases ht t with rfl | rfl | rfl | rfl | rfl | rfl | rfl | rfl <;>
    simp [State.table] at h <;> subst h <;>
    simp [tlen, devDesc, cfgDesc, str0Desc, str1Desc, str2Desc, strDesc] <;> omega

/-- A table exists below the reserved ids (R86). -/
theorem State.table_isSome (s : State) {t : BitVec 3} (h : t.toNat < 6) : ∃ b, s.table t = some b := by
  have ht : ∀ t : BitVec 3, t = 0 ∨ t = 1 ∨ t = 2 ∨ t = 3 ∨ t = 4 ∨ t = 5 ∨ t = 6 ∨ t = 7 := by decide
  rcases ht t with rfl | rfl | rfl | rfl | rfl | rfl | rfl | rfl <;> first
    | exact ⟨_, rfl⟩
    | simp at h

theorem State.romRead_eq_some {s : State} {t : BitVec 3} {off n : Nat} {r : List Byte} :
    s.romRead t off n = some r ↔
      ∃ b, s.table t = some b ∧ off + n ≤ b.length ∧ r = (b.drop off).take n := by
  unfold State.romRead
  cases s.table t with
  | none => simp
  | some b => by_cases h : off + n ≤ b.length <;> simp [h, eq_comm]

/-- The sizes of the strings stay below 256. -/
theorem tlen_lt (t : BitVec 3) : tlen t < 256 := by
  have h1 := Config.str1Units.isLt
  have h2 := Config.str2Units.isLt
  unfold tlen
  split_ifs <;> omega

/-- The declared length is the table's size (R91). -/
theorem dlen_toNat {t : BitVec 3} (h : 1 ≤ t.toNat) (h' : t.toNat ≤ 5) : (dlen t).toNat = tlen t := by
  have ht : ∀ t : BitVec 3, t = 0 ∨ t = 1 ∨ t = 2 ∨ t = 3 ∨ t = 4 ∨ t = 5 ∨ t = 6 ∨ t = 7 := by decide
  have h1 := Config.str1Units.isLt
  have h2 := Config.str2Units.isLt
  rcases ht t with rfl | rfl | rfl | rfl | rfl | rfl | rfl | rfl <;>
    simp [dlen, tlen, devDesc, cfgDesc, str0Desc, str1Desc, str2Desc, strDesc, le16At] at h h' ⊢ <;> omega

/-! ## The control engine -/

/-- A Data-In chunk either reads past a table, which faults, or stores its slice and arms EP0 IN (R197). -/
theorem dataInChunk_eq_next {s t : State} :
    dataInChunk s = .next t ↔
      ∃ b, s.romRead s.srcT s.srcOff.toNat (chunkLen s.remain) = some b ∧
        t = { s.fill 1 b with
          srcOff := s.srcOff + BitVec.ofNat 8 (chunkLen s.remain),
          remain := s.remain - BitVec.ofNat 16 (chunkLen s.remain),
          bds := s.bds.arm 1 (BitVec.ofNat 8 (chunkLen s.remain)) true } := by
  simp only [dataInChunk]
  cases s.romRead s.srcT s.srcOff.toNat (chunkLen s.remain) with
  | none => simp
  | some b =>
    simp only [Host.Outcome.next.injEq, Option.some.injEq]
    constructor
    · intro hs
      exact ⟨b, rfl, hs.symm⟩
    · rintro ⟨c, rfl, rfl⟩
      rfl

/-- A request whose verdict is "unhandled" stalls EP0 (R191, R193). -/
theorem finishRequest_unhandled {s : State} {v : Verdict} (hdev : s.devOk = true) (h : v.handled = false)
    (toHost : Bool) (wLength : BitVec 16) :
    finishRequest toHost wLength v s = .next (unhandled { s with handled := false }) := by
  simp [finishRequest, withDevState, hdev, h]

/-- A handled host-to-device request (R191, R195). -/
theorem finishRequest_out {s : State} {v : Verdict} (hdev : s.devOk = true) (h : v.handled = true)
    (wLength : BitVec 16) :
    finishRequest false wLength v s = .next (startOut (acceptRequest v s)) := by
  simp [finishRequest, withDevState, hdev, h]

/-- A handled device-to-host request (R191, R194). -/
theorem finishRequest_in {s : State} {v : Verdict} (hdev : s.devOk = true) (h : v.handled = true)
    (wLength : BitVec 16) :
    finishRequest true wLength v s = startIn v.table v.len wLength (acceptRequest v s) := by
  simp [finishRequest, withDevState, hdev, h]

/-- The ways a request can end in a next state. -/
theorem finishRequest_eq_next {toHost : Bool} {wLength : BitVec 16} {v : Verdict} {s t : State}
    (h : finishRequest toHost wLength v s = .next t) :
    (v.handled = false ∧ t = unhandled { s with handled := false })
      ∨ (v.handled = true ∧ toHost = false ∧ t = startOut (acceptRequest v s))
      ∨ (v.handled = true ∧ toHost = true ∧ startIn v.table v.len wLength (acceptRequest v s) = .next t) := by
  unfold finishRequest at h
  rw [withDevState_eq_next] at h
  obtain ⟨_, h⟩ := h
  cases hv : v.handled <;> cases ht : toHost <;> simp_all

/-- What a data stage to the host leaves, when it starts: one chunk, then EP0 OUT armed (R194). -/
theorem startIn_eq_next {t : BitVec 3} {len wLength : BitVec 16} {s s' : State} :
    startIn t len wLength s = .next s' ↔
      ∃ s1, dataInChunk { s with
          remain := if len ≤ wLength then len else wLength, srcT := t, srcOff := 0 } = .next s1
        ∧ s' = ({ s1 with stage := stageDataIn }).arm 0 64 true := by
  unfold startIn
  rw [Result.andThen_eq_next]
  simp [eq_comm]

end Sys2Proof.Machine
end

