-- ==== Sys2Proof/Laws/PerInstr.lean ====
section
/-! SUPPORT. One statement per instruction, about its syntax: the word it is encoded as satisfies its row of the opcode
table. -/

namespace Sys2Proof.Laws.RowMatch

/-- The word of a port, as the opcode table numbers its bits. -/
def word : PortWord → BitVec 64
  | .setup packet => packet
  | .cmd c _ => c.setWidth 64
  | .bdop w => w.setWidth 64
  | .pumpin v => v.setWidth 64
  | .ustat u => u.setWidth 64

/-- The `mask` and the `match` of an instruction's row, copied from the opcode table. -/
def row : Instr → BitVec 64 × BitVec 64
  | .getStatusDev _ _ _ => (0xFFFF, 0x0080)
  | .getStatusIf _ _ _ => (0xFFFF, 0x0081)
  | .getStatusEp _ _ _ => (0xFFFF, 0x0082)
  | .clearFeatureDev _ _ _ => (0xFFFF, 0x0100)
  | .clearFeatureEp _ _ _ => (0xFFFF, 0x0102)
  | .setFeatureDev _ _ _ => (0xFFFF, 0x0300)
  | .setFeatureEp _ _ _ => (0xFFFF, 0x0302)
  | .setAddress _ _ _ => (0xFFFF, 0x0500)
  | .getDescriptor _ _ _ => (0xFFFF, 0x0680)
  | .getConfiguration _ _ _ => (0xFFFF, 0x0880)
  | .setConfiguration _ _ _ => (0xFFFF, 0x0900)
  | .getInterface _ _ _ => (0xFFFF, 0x0A81)
  | .setInterface _ _ _ => (0xFFFF, 0x0B01)
  | .bulkWrite _ _ => (0xFF00F0FF, 0x00000001)
  | .bulkRead _ _ => (0xFF00F0FF, 0x00000002)
  | .status => (0xFFFFFFFF, 0x00000003)
  | .arm _ _ _ => (0x00C3, 0x0001)
  | .drain _ _ => (0x00E3, 0x0002)
  | .reclaim _ => (0xFFE3, 0x0003)
  | .detach => (0x0500, 0x0400)
  | .attach => (0x7500, 0x0100)
  | .powered => (0x7300, 0x1100)
  | .actv => (0x0004, 0x0004)
  | .urst => (0x0001, 0x0001)
  | .idle => (0x0010, 0x0010)
  | .sof => (0x0040, 0x0040)
  | .stall => (0x0020, 0x0020)
  | .uerr => (0x0002, 0x0002)
  | .trn => (0x0008, 0x0008)
  | .trnEp0Setup => (0x7F, 0x40)
  | .trnEp0Out => (0x7F, 0x00)
  | .trnEp0In => (0x7F, 0x30)
  | .trnEp1Out => (0x7F, 0x01)
  | .trnEp2Out => (0x7F, 0x02)
  | .trnEp1In => (0x7F, 0x31)
  | .trnEp2In => (0x7F, 0x32)

/-- The encoded word matches the instruction's own row. -/
def Statement (i : Instr) : Prop := word (encode i) &&& (row i).1 = (row i).2

/-! ## The words with operands -/

theorem setupPacket_masked (selector v i l : BitVec 16) :
    setupPacket selector v i l &&& 0xFFFF = selector.setWidth 64 := by
  apply BitVec.eq_of_getLsbD_eq
  intro j hj
  have mask : ∀ j : Fin 64, (0xFFFF : BitVec 64).getLsbD j.val = decide (j.val < 16) := by decide
  rw [BitVec.getLsbD_and, mask ⟨j, hj⟩, BitVec.getLsbD_setWidth, setupPacket]
  simp only [BitVec.getLsbD_append]
  by_cases h : j < 16
  · simp [h, hj]
  · simp [h, BitVec.getLsbD_of_ge selector j (by omega)]

theorem cmdWord_masked (len : Byte) (ep : BitVec 4) (opc : Byte) :
    (cmdWord len ep opc).setWidth 64 &&& 0xFF00F0FF = opc.setWidth 64 := by
  apply BitVec.eq_of_getLsbD_eq
  intro j hj
  have mask : ∀ j : Fin 64, (0xFF00F0FF : BitVec 64).getLsbD j.val
      = (decide (j.val < 8) || (decide (12 ≤ j.val) && decide (j.val < 16))
          || (decide (24 ≤ j.val) && decide (j.val < 32))) := by decide
  rw [BitVec.getLsbD_and, mask ⟨j, hj⟩]
  simp only [BitVec.getLsbD_setWidth, cmdWord, BitVec.getLsbD_append]
  by_cases h : j < 8
  · simp [h, hj]
  · by_cases h12 : j < 12
    · simp [h, show ¬ 12 ≤ j by omega, show ¬ 24 ≤ j by omega, BitVec.getLsbD_of_ge opc j (by omega)]
    · by_cases h16 : j < 16
      · simp [h, show ¬ j - 8 < 4 by omega, show j - 8 - 4 < 4 by omega, BitVec.getLsbD_of_ge opc j (by omega)]
      · by_cases h24 : j < 24
        · simp [h, h16, show ¬ 24 ≤ j by omega, BitVec.getLsbD_of_ge opc j (by omega)]
        · simp [h, show ¬ j - 8 < 4 by omega, show ¬ j - 8 - 4 < 4 by omega, show ¬ j - 8 - 4 - 4 < 8 by omega,
            BitVec.getLsbD_of_ge opc j (by omega)]

theorem bdopWord_masked (bd : BdIndex) (len : Byte) (t : Bool) :
    (bdopWord len t bd 1).setWidth 64 &&& 0x00C3 = (0x0001 : BitVec 64)
      ∧ (bdopWord len false bd 2).setWidth 64 &&& 0x00E3 = (0x0002 : BitVec 64) := by
  have bit (P : Nat → Prop) (h : ∀ j : Fin 64, P j.val) : ∀ j, j < 64 → P j := fun j hj => h ⟨j, hj⟩
  constructor <;> apply BitVec.eq_of_getLsbD_eq <;> apply bit <;> intro j <;>
    simp only [BitVec.getLsbD_and, BitVec.getLsbD_setWidth, bdopWord, BitVec.getLsbD_append] <;>
    fin_cases j <;> simp

/-! ## One lemma per constructor -/

theorem getStatusDev (v i l : BitVec 16) : Statement (.getStatusDev v i l) := setupPacket_masked _ v i l

theorem getStatusIf (v i l : BitVec 16) : Statement (.getStatusIf v i l) := setupPacket_masked _ v i l

theorem getStatusEp (v i l : BitVec 16) : Statement (.getStatusEp v i l) := setupPacket_masked _ v i l

theorem clearFeatureDev (v i l : BitVec 16) : Statement (.clearFeatureDev v i l) := setupPacket_masked _ v i l

theorem clearFeatureEp (v i l : BitVec 16) : Statement (.clearFeatureEp v i l) := setupPacket_masked _ v i l

theorem setFeatureDev (v i l : BitVec 16) : Statement (.setFeatureDev v i l) := setupPacket_masked _ v i l

theorem setFeatureEp (v i l : BitVec 16) : Statement (.setFeatureEp v i l) := setupPacket_masked _ v i l

theorem setAddress (v i l : BitVec 16) : Statement (.setAddress v i l) := setupPacket_masked _ v i l

theorem getDescriptor (v i l : BitVec 16) : Statement (.getDescriptor v i l) := setupPacket_masked _ v i l

theorem getConfiguration (v i l : BitVec 16) : Statement (.getConfiguration v i l) := setupPacket_masked _ v i l

theorem setConfiguration (v i l : BitVec 16) : Statement (.setConfiguration v i l) := setupPacket_masked _ v i l

theorem getInterface (v i l : BitVec 16) : Statement (.getInterface v i l) := setupPacket_masked _ v i l

theorem setInterface (v i l : BitVec 16) : Statement (.setInterface v i l) := setupPacket_masked _ v i l

theorem bulkWrite (ep : BitVec 4) (data : List Byte) : Statement (.bulkWrite ep data) := cmdWord_masked _ ep 0x01

theorem bulkRead (ep : BitVec 4) (len : Byte) : Statement (.bulkRead ep len) := cmdWord_masked len ep 0x02

theorem status : Statement .status := by
  unfold Statement
  decide

theorem arm (bd : BdIndex) (len : Byte) (t : Bool) : Statement (.arm bd len t) := (bdopWord_masked bd len t).1

theorem drain (bd : BdIndex) (max : Byte) : Statement (.drain bd max) := (bdopWord_masked bd max false).2

theorem reclaim (bd : BdIndex) : Statement (.reclaim bd) := by
  unfold Statement
  revert bd
  decide

theorem detach : Statement .detach := rfl

theorem attach : Statement .attach := rfl

theorem powered : Statement .powered := rfl

theorem actv : Statement .actv := rfl

theorem urst : Statement .urst := rfl

theorem idle : Statement .idle := rfl

theorem sof : Statement .sof := rfl

theorem stall : Statement .stall := rfl

theorem uerr : Statement .uerr := rfl

theorem trn : Statement .trn := rfl

theorem trnEp0Setup : Statement .trnEp0Setup := rfl

theorem trnEp0Out : Statement .trnEp0Out := rfl

theorem trnEp0In : Statement .trnEp0In := rfl

theorem trnEp1Out : Statement .trnEp1Out := rfl

theorem trnEp2Out : Statement .trnEp2Out := rfl

theorem trnEp1In : Statement .trnEp1In := rfl

theorem trnEp2In : Statement .trnEp2In := rfl

end Sys2Proof.Laws.RowMatch
end

