-- ==== Sys2Proof/Laws/Requests.lean ====
section
/-! SUPPORT. The fields of a Setup packet, a request's meaning as one operation over its verdict, and what every verdict of
the dispatcher satisfies. -/

namespace Sys2Proof

/-! ## The packet -/

@[simp] theorem setupSelector_setupPacket (a b c d : BitVec 16) : setupSelector (setupPacket a b c d) = a := by
  unfold setupSelector setupPacket
  ext j hj
  simp only [BitVec.getElem_extractLsb', BitVec.getLsbD_append]
  simp [hj]

@[simp] theorem setupValue_setupPacket (a b c d : BitVec 16) : setupValue (setupPacket a b c d) = b := by
  unfold setupValue setupPacket
  ext j hj
  simp only [BitVec.getElem_extractLsb', BitVec.getLsbD_append]
  simp [show ¬ 16 + j < 16 by omega, show 16 + j - 16 = j by omega, hj]

@[simp] theorem setupIndex_setupPacket (a b c d : BitVec 16) : setupIndex (setupPacket a b c d) = c := by
  unfold setupIndex setupPacket
  ext j hj
  simp only [BitVec.getElem_extractLsb', BitVec.getLsbD_append]
  simp [show ¬ 32 + j < 16 by omega, show ¬ 32 + j - 16 < 16 by omega, show 32 + j - 16 - 16 = j by omega, hj]

@[simp] theorem setupLength_setupPacket (a b c d : BitVec 16) : setupLength (setupPacket a b c d) = d := by
  unfold setupLength setupPacket
  ext j hj
  simp only [BitVec.getElem_extractLsb', BitVec.getLsbD_append]
  simp [show ¬ 48 + j < 16 by omega, show ¬ 48 + j - 16 < 16 by omega, show ¬ 48 + j - 16 - 16 < 16 by omega,
    show 48 + j - 16 - 16 - 16 = j by omega, hj]

theorem setupPacket_fields (p : BitVec 64) :
    setupPacket (setupSelector p) (setupValue p) (setupIndex p) (setupLength p) = p := by
  unfold setupPacket setupSelector setupValue setupIndex setupLength
  apply BitVec.eq_of_getLsbD_eq
  intro j hj
  simp only [BitVec.getLsbD_append, BitVec.getLsbD_extractLsb']
  by_cases h1 : j < 16
  · simp [h1]
  · by_cases h2 : j - 16 < 16
    · simp [h1, h2]; congr 1; omega
    · by_cases h3 : j - 16 - 16 < 16
      · simp [h1, h2, h3]; congr 1; omega
      · simp [h1, h2, h3, show j - 16 - 16 - 16 < 16 by omega]; congr 1; omega

theorem setupType_setupPacket (a b c d : BitVec 16) : setupType (setupPacket a b c d) = a.extractLsb' 5 2 := by
  have h := setupSelector_setupPacket a b c d
  unfold setupType
  ext j hj
  have := congrArg (·.getLsbD (5 + j)) h
  simp only [setupSelector, BitVec.getLsbD_extractLsb', Nat.zero_add] at this
  simp only [BitVec.getElem_extractLsb']
  simpa [show 5 + j < 16 by omega] using this

end Sys2Proof

namespace Sys2Proof.Machine

/-! ## The meaning of a request -/

/-- Every request does with its verdict what the Setup handler does, its direction and `wLength` being those of its packet
(R209). -/
theorem exec_request {i : Instr} {packet : BitVec 64} (h : encode i = .setup packet) (s : State) :
    exec i s = finishRequest (setupToHost packet) (setupLength packet) (requestVerdict i s.devRec) s := by
  have dir : ∀ a b c d, setupToHost (setupPacket a b c d) = a.getLsbD 7 := by
    intro a b c d
    have := congrArg (·.getLsbD 7) (setupSelector_setupPacket a b c d)
    simpa [setupSelector, setupToHost] using this
  cases i <;> simp only [encode, PortWord.setup.injEq, reduceCtorEq] at h <;> subst h <;>
    rw [dir, setupLength_setupPacket] <;> rfl

/-- The endpoint halt feature writes `EPHALT` alone (R250, R251). -/
theorem verdictHalt_writes (wValue wIndex : BitVec 16) (b : Bool) (d : DevRec) :
    (verdictHalt wValue wIndex b d).act = .none ∧ (verdictHalt wValue wIndex b d).rb = none
      ∧ (verdictHalt wValue wIndex b d).devRec = { d with ephalt := (verdictHalt wValue wIndex b d).devRec.ephalt } := by
  unfold verdictHalt
  split
  · exact ⟨rfl, rfl, rfl⟩
  · split
    · exact ⟨rfl, rfl, rfl⟩
    · split <;> exact ⟨rfl, rfl, rfl⟩

/-! ## Verdicts -/

/-- What a verdict on the record `d` satisfies: its response lies in its table, the hardwired halt bits stay clear, the
device state changes only with a configuration action, and an address becomes pending only outside Configured. -/
structure VerdictFits (d : DevRec) (v : Verdict) : Prop where
  len : v.len.toNat ≤ tlen v.table
  tab : v.table.toNat < 6
  halt : d.ephalt &&& 0b000011 = 0 → v.devRec.ephalt &&& 0b000011 = 0
  act : (v.act = .none ∧ v.devRec.devstate = d.devstate) ∨ (v.act = .cfgOff ∧ v.devRec.devstate = 4)
    ∨ (v.act = .cfgOn ∧ v.devRec.devstate = 5)
  pend : v.devRec.apend = true → d.apend = true ∨ (v.act = .none ∧ d.devstate ≠ 5)

/-- An unhandled request. -/
theorem VerdictFits.unh (d : DevRec) : VerdictFits d (.unh d) := by
  constructor <;> simp [Verdict.unh, tlen]
  tauto

/-- A request answered by computed bytes. -/
theorem VerdictFits.sendBytes (d : DevRec) (n : BitVec 16) (a b : Byte) (h : n.toNat ≤ 2) :
    VerdictFits d (.sendBytes n a b d) := by
  constructor <;> simp [Verdict.sendBytes, tlen, h]
  tauto

/-- A write of a halt bit leaves the hardwired bits clear (R44). -/
theorem writeHalt_low (h : BitVec 6) (i : BdIndex) (b : Bool) (hh : h &&& 3 = 0) : writeHalt h i b &&& 3 = 0 := by
  revert h i b; decide

/-- A request answered by a descriptor. -/
theorem VerdictFits.send (d : DevRec) (t : BitVec 3) (h : 1 ≤ t.toNat) (h' : t.toNat ≤ 5) :
    VerdictFits d (.send t (dlen t) d) := by
  constructor
  · simp [Verdict.send, dlen_toNat h h']
  · simp [Verdict.send]; omega
  · simp [Verdict.send]
  · simp [Verdict.send]
  · simp [Verdict.send]; intro h; left; exact h

/-- The endpoint halt feature. -/
theorem VerdictFits.haltFeature (a b : BitVec 16) (c : Bool) (d : DevRec) : VerdictFits d (verdictHalt a b c d) := by
  unfold verdictHalt
  split
  · exact .unh d
  · split
    · exact .unh d
    · split
      · exact .unh d
      · constructor
        · simp [Verdict.accept]
        · simp [Verdict.accept]
        · intro h; exact writeHalt_low _ _ _ h
        · simp [Verdict.accept]
        · simp [Verdict.accept]; intro h; left; exact h

/-- Every request of the table. -/
theorem VerdictFits.request (i : Instr) (d : DevRec) : VerdictFits d (requestVerdict i d) := by
  cases i <;> simp only [requestVerdict] <;> try exact .unh d
  · exact .sendBytes _ _ _ _ (by decide)
  · unfold verdictGetStatusIf; split
    · exact .unh d
    · exact .sendBytes _ _ _ _ (by decide)
  · unfold verdictGetStatusEp; split
    · exact .unh d
    · exact .sendBytes _ _ _ _ (by decide)
  · unfold verdictClearFeatureDev; split
    · exact .unh d
    · constructor <;> simp [Verdict.accept]
      tauto
  · exact .haltFeature _ _ _ _
  · unfold verdictSetFeatureDev; split
    · exact .unh d
    · constructor <;> simp [Verdict.accept]
      tauto
  · exact .haltFeature _ _ _ _
  · unfold verdictSetAddress; split
    · exact .unh d
    · split
      · exact .unh d
      · constructor <;> simp_all [Verdict.accept]
  · rename_i w _ _
    unfold verdictGetDescriptor
    simp only
    split
    · exact .send _ _ (by decide) (by decide)
    · split
      · exact .send _ _ (by decide) (by decide)
      · split
        · rename_i h
          have : ∀ x : BitVec 8, x ≤ 2 →
              1 ≤ (3 + x.setWidth 3 : BitVec 3).toNat ∧ (3 + x.setWidth 3 : BitVec 3).toNat ≤ 5 := by decide
          exact .send _ _ (this _ h.2).1 (this _ h.2).2
        · exact .unh d
  · exact .sendBytes _ _ _ _ (by decide)
  · unfold verdictSetConfiguration; simp only; split
    · constructor <;> simp [Verdict.accept]
    · constructor <;> simp [Verdict.accept]
  · unfold verdictGetInterface; split
    · exact .unh d
    · exact .sendBytes _ _ _ _ (by decide)
  · unfold verdictSetInterface; split
    · exact .unh d
    · constructor <;> simp [Verdict.accept]
      tauto

/-- Every packet. -/
theorem VerdictFits.dispatch (p : BitVec 64) (d : DevRec) : VerdictFits d (dispatchRequest p d) := by
  unfold dispatchRequest; split
  · exact .request _ _
  · exact .unh d

end Sys2Proof.Machine
end

