-- ==== Sys2Proof/Laws/Steps.lean ====
section
/-! SUPPORT. What the branches, the TRN routing, the pump step and the moves of the SIE can do, said once: each lemma
lists the ways in which an operation ends in a next state, or the value it has. -/

namespace Sys2Proof.Machine

theorem State.devOk_of_le {s : State} (h : s.devstate ≤ 5) : s.devOk = true := by
  simpa [State.devOk] using h

theorem State.atLeastDefault_iff (s : State) : s.atLeastDefault = true ↔ 3 ≤ s.devstate := by
  simp [State.atLeastDefault]

/-! ## Branches -/

/-- The two ways of a bus reset (R286). -/
theorem execUrst_eq_next {s t : State} (h : execUrst s = .next t) :
    (s.devstate = 0 ∧ t = s.clearUir 0) ∨ (s.devstate ≠ 0 ∧ t = (busResetHandler s).clearUir 0) := by
  unfold execUrst at h
  rw [withDevState_eq_next, Host.Outcome.next.injEq] at h
  obtain ⟨_, rfl⟩ := h
  by_cases hd : s.devstate = 0
  · exact .inl ⟨hd, by rw [if_neg (by simpa using hd)]⟩
  · exact .inr ⟨hd, by rw [if_pos hd]⟩

/-- The two ways of the Setup handler (R191). -/
theorem execTrnEp0Setup_eq_next {s t : State} (h : execTrnEp0Setup s = .next t) :
    (s.bds.ep0Out.count = 8
        ∧ finishRequest (setupToHost (latchSetup s).setup) (setupLength (latchSetup s).setup)
            (dispatchRequest (latchSetup s).setup (contextReset (latchSetup s)).devRec)
            (contextReset (latchSetup s)) = .next t)
      ∨ (s.bds.ep0Out.count ≠ 8 ∧ t = unhandled { contextReset s with handled := false }) := by
  unfold execTrnEp0Setup at h
  split at h
  · rename_i hc
    exact .inl ⟨hc, h⟩
  · rename_i hc
    rw [Host.Outcome.next.injEq] at h
    exact .inr ⟨hc, h.symm⟩

/-- What the latch names is a row of its table (R291). -/
theorem decodeUstat_eq_ok {u : Byte} {i : Instr} (h : decodeUstat u = .ok i) : (u &&& 0x7F, i) ∈ ustatRows := by
  unfold decodeUstat at h
  split at h
  · rename_i row hr
    rw [Except.ok.injEq] at h
    subst h
    have h1 : u &&& 0x7F = row.1 := by simpa using List.find?_some hr
    rw [h1]
    exact List.mem_of_find?_eq_some hr
  · cases h

/-- The ways of the TRN branch: discarded below Default, one of the three EP0 handlers, or no action, and then the
latch is freed (R291 to R294). -/
theorem execTrn_eq_next {s t : State} (h : execTrn s = .next t) :
    ∃ s1, t = s1.clearUir uirTRN ∧
      ((s.devstate < 3 ∧ s1 = s)
        ∨ (3 ≤ s.devstate
          ∧ ((s.ustat &&& 0x7F = 0x40 ∧ execTrnEp0Setup s = .next s1)
            ∨ (s.ustat &&& 0x7F = 0x00 ∧ execTrnEp0Out s = .next s1)
            ∨ (s.ustat &&& 0x7F = 0x30 ∧ execTrnEp0In s = .next s1)
            ∨ (s.ustat &&& 0x7F ≠ 0x40 ∧ s.ustat &&& 0x7F ≠ 0x00 ∧ s.ustat &&& 0x7F ≠ 0x30
              ∧ (s1 = s ∨ s1 = s.clearUir uirTRN))))) := by
  unfold execTrn at h
  rw [withDevState_eq_next, Result.andThen_eq_next] at h
  obtain ⟨_, s1, h1, h⟩ := h
  rw [Host.Outcome.next.injEq] at h
  refine ⟨s1, h.symm, ?_⟩
  split at h1
  · rename_i h3
    refine .inr ⟨by simpa [State.atLeastDefault] using h3, ?_⟩
    unfold routeTransaction at h1
    split at h1
    all_goals try (rename_i hu; have hm := decodeUstat_eq_ok hu; simp [ustatRows] at hm)
    · exact .inl ⟨hm, h1⟩
    · exact .inr (.inl ⟨hm, h1⟩)
    · exact .inr (.inr (.inl ⟨hm, h1⟩))
    · simp only [execTrnEp1Out, bulkCompletion, Host.Outcome.next.injEq] at h1
      exact .inr (.inr (.inr ⟨by simp [hm], by simp [hm], by simp [hm], .inr h1.symm⟩))
    · simp only [execTrnEp2Out, bulkCompletion, Host.Outcome.next.injEq] at h1
      exact .inr (.inr (.inr ⟨by simp [hm], by simp [hm], by simp [hm], .inr h1.symm⟩))
    · simp only [execTrnEp1In, bulkCompletion, Host.Outcome.next.injEq] at h1
      exact .inr (.inr (.inr ⟨by simp [hm], by simp [hm], by simp [hm], .inr h1.symm⟩))
    · simp only [execTrnEp2In, bulkCompletion, Host.Outcome.next.injEq] at h1
      exact .inr (.inr (.inr ⟨by simp [hm], by simp [hm], by simp [hm], .inr h1.symm⟩))
    · rename_i x1 x2 x3 _ _ _ _
      rw [Host.Outcome.next.injEq] at h1
      refine .inr (.inr (.inr ⟨?_, ?_, ?_, .inl h1.symm⟩))
      · exact fun hh => x1 (by unfold decodeUstat; rw [hh]; rfl)
      · exact fun hh => x2 (by unfold decodeUstat; rw [hh]; rfl)
      · exact fun hh => x3 (by unfold decodeUstat; rw [hh]; rfl)
  · rename_i h3
    rw [Host.Outcome.next.injEq] at h1
    exact .inl ⟨by simpa [State.atLeastDefault] using h3, h1.symm⟩

/-! ## The pump step -/

/-- The pump step, branch by branch, its tests in the names of the registers (R281). -/
theorem pumpStep_eq {s : State} (h : s.devOk = true) :
    pumpStep s =
      Result.andThen (if s.moden = true ∧ s.vbus = false then execDetach s else .next s) fun s =>
      Result.andThen
        (if s.devstate = 0 ∧ s.moden = false ∧ s.vbus = true then execAttach s else .next s) fun s =>
      Result.andThen
        (if s.devstate = 1 ∧ s.se0 = false ∧ s.vbus = true then execPowered s else .next s) fun s =>
      Result.andThen (if s.uirBit uirACTV = true then execActv s else .next s) fun s =>
      Result.andThen (if s.uirBit uirURST = true then execUrst s else .next s) fun s =>
      Result.andThen (if s.uirBit uirIDLE = true then execIdle s else .next s) fun s =>
      Result.andThen (if s.uirBit uirSOF = true then execSof s else .next s) fun s =>
      Result.andThen (if s.uirBit uirSTALL = true then execStall s else .next s) fun s =>
      Result.andThen (if s.uirBit uirUERR = true then execUerr s else .next s) fun s =>
      Result.andThen (if s.uirBit uirTRN = true then execTrn s else .next s) fun s => .next s := by
  unfold pumpStep
  rw [withDevState_ok h]
  simp only [← test_detach_iff, ← test_attach_iff, ← test_powered_iff, ← test_flag_iff _ (show 0 < 8 by omega),
    ← test_flag_iff _ (show 1 < 8 by omega), ← test_flag_iff _ (show 2 < 8 by omega),
    ← test_flag_iff _ (show 3 < 8 by omega), ← test_flag_iff _ (show 4 < 8 by omega),
    ← test_flag_iff _ (show 5 < 8 by omega), ← test_flag_iff _ (show 6 < 8 by omega)]
  rfl

/-- Whatever a branch list keeps branch by branch, it keeps as a whole. -/
theorem runBranches_invariant {P : State → Prop} {rows : List (BitVec 16 × BitVec 16 × Instr)}
    (hrows : ∀ row ∈ rows, ∀ s t, P s → s.view &&& row.1 = row.2.1 → exec row.2.2 s = .next t → P t)
    {s t : State} (hs : P s) (ht : runBranches rows s = .next t) : P t := by
  induction rows generalizing s with
  | nil =>
    cases ht
    exact hs
  | cons row rows ih =>
    rw [runBranches, Result.andThen_eq_next] at ht
    obtain ⟨s1, h1, h2⟩ := ht
    refine ih (fun r hr => hrows r (List.mem_cons_of_mem _ hr)) ?_ h2
    split at h1
    · rename_i hv
      exact hrows row List.mem_cons_self s s1 hs hv h1
    · cases h1
      exact hs

/-! ## The SIE -/

theorem epOf_ofNat (ep : Fin 3) : epOf (BitVec.ofNat 4 ep.val) = some ep := by
  revert ep
  decide

/-- A token passes the gate for one endpoint, the one it names, and then all of R341 holds. -/
theorem tokenGate_eq_ok {s : State} {a : BitVec 7} {ep : BitVec 4} {e : Fin 3} :
    tokenGate s a ep = .ok e ↔
      epOf ep = some e ∧ s.moden = true ∧ a = s.addr ∧ s.enabled e.val = true ∧ s.uirBit uirTRN = false := by
  unfold tokenGate
  cases h : epOf ep with
  | none => simp
  | some e' =>
    by_cases hc : s.moden = true ∧ a = s.addr ∧ s.enabled e'.val = true
    · cases hu : s.uirBit uirTRN
      · constructor
        · intro he
          simp only [hc, and_self, if_true, Bool.false_eq_true, if_false, Except.ok.injEq] at he
          subst he
          exact ⟨rfl, hc.1, hc.2.1, hc.2.2, rfl⟩
        · rintro ⟨he, _⟩
          cases he
          simp [hc]
      · simp [hc]
    · simp only [hc, if_false]
      constructor
      · intro he
        cases he
      · rintro ⟨he, h1, h2, h3, _⟩
        cases he
        exact absurd ⟨h1, h2, h3⟩ hc

/-- The halt the SIE sees: never one of EP0 (R44). -/
theorem State.halted_bdOf (s : State) (e : Fin 3) (d : Dir) :
    s.halted (bdOf e d) = decide (e ≠ 0 ∧ s.ephalt.getLsbD (bdOf e d).val = true) := by
  unfold State.halted haltOf
  fin_cases e <;> cases d <;> simp [bdOf]

/-- Received bytes change the count of their descriptor alone. -/
theorem State.receive_bd (s : State) (i j : BdIndex) (bytes : List Byte) :
    (s.receive i bytes).bd j =
      if j = i then { s.bd i with count := BitVec.ofNat 8 bytes.length } else s.bd j := by
  unfold State.receive State.bd
  simp only
  split
  · rename_i h
    subst h
    simp
  · rename_i h
    rw [BdFile.get_set_other _ _ h]
    rfl

/-- A completion changes the owner of its descriptor alone. -/
theorem State.complete_bd (s : State) (i j : BdIndex) (u : Byte) :
    (s.complete i u).bd j = if j = i then { s.bd i with own := .sw } else s.bd j := by
  unfold State.complete State.bd State.setUir
  simp only
  split
  · rename_i h
    subst h
    simp
  · rename_i h
    rw [BdFile.get_set_other _ _ h]

end Sys2Proof.Machine
end

