-- ==== Sys2Proof/Machine/Trace.lean ====
section
/-! DEFINITION. The pseudo-operations of the trace syntax and their exact expansions (30_encoding.md R139), and the
eight bytes a Setup line carries (R130). -/

namespace Sys2Proof.Machine

/-- The eight bytes of a Setup packet, byte 0 first (R130). -/
def setupBytes (packet : BitVec 64) : List Byte := (List.range 8).map fun k => packet.extractLsb' (8 * k) 8

/-- The number of IN tokens of a control read: `max(1, ceil(min(DLEN_response, wLength)/64))` (R139, R207). -/
def chunkCount (respLen wLength : Nat) : Nat := max 1 ((min respLen wLength + 63) / 64)

/-- The pseudo-operations (R139). CTRL_READ is written with `a` and the packet alone, and R139 does not say how its
expansion learns `DLEN_response`: the model takes the length as a third operand of its own, `respLen`, free of the
packet (DESIGN CHOICE, assumption log 24). -/
inductive Pseudo where
  | plugIn
  | busReset
  | ctrlRead (a : BitVec 7) (packet : BitVec 64) (respLen : Nat)
  | ctrlNoData (a : BitVec 7) (packet : BitVec 64)
  | ctrlFail (a : BitVec 7) (packet : BitVec 64)
  deriving DecidableEq, Repr

/-- The lines a pseudo-operation stands for (R139), `DLEN_response` being the operand `respLen` (assumption log 24). -/
def Pseudo.expand : Pseudo → List Line
  | .plugIn => [.bus true false, .pump]
  | .busReset => [.flag .urst, .pump]
  | .ctrlRead a packet respLen =>
    [.setup a (setupBytes packet), .pump]
      ++ (List.replicate (chunkCount respLen (setupLength packet).toNat) [Line.inToken a 0, Line.pump]).flatten
      ++ [.out a 0 true [], .pump]
  | .ctrlNoData a packet => [.setup a (setupBytes packet), .pump, .inToken a 0, .pump]
  | .ctrlFail a packet => [.setup a (setupBytes packet), .pump]

/-- The state with these lines put before the rest of its agenda. -/
def State.withLines (s : State) (ls : List Line) : State := { s with agenda := ls ++ s.agenda }

end Sys2Proof.Machine
end

