-- ==== Sys2Proof/Tests/Slice0.lean ====
section
/-! SUPPORT. The model's own tests. Every expected value is the spec's: a worked example, a table, or a hand
calculation from one, named in the comment. And a witness for every statement that has hypotheses: a state and operands
that meet them all. -/

namespace Sys2Proof.Tests

open Sys2Proof.Machine Sys2Proof.Safety

/-! ## Small states -/

/-- What a meaning leaves, seen through one question. -/
def after {α : Type} (r : Result) (f : State → α) : Option α := r.next?.map f

/-- Default, EP0 armed, as R286's example leaves it. -/
def inDefault : State :=
  { State.reset with
    moden := true, vbus := true, devstate := 3, epen := 0b001
    bds := { State.reset.bds with ep0Out := { own := .hw, dts := true, stall := false, count := 64, addr := 0x00 } } }

/-- Default with a Setup packet of 8 bytes received: both EP0 descriptors with the block (R340). -/
def owned : State :=
  { inDefault with bds := { State.reset.bds with ep0Out := { State.reset.bds.ep0Out with count := 8 } } }

/-- Configured, right after SET_CONFIGURATION(1) at address 5 (R263). -/
def configured : State :=
  { State.reset with
    moden := true, vbus := true, devstate := 5, epen := 0b111, addr := 5, config := 1, handled := true
    bds :=
      { ep0Out := { own := .hw, dts := true, stall := false, count := 64, addr := 0x00 }
        ep0In := { own := .sw, dts := true, stall := false, count := 0, addr := 0x40 }
        ep1Out := { own := .hw, dts := false, stall := false, count := 7, addr := 0x80 }
        ep1In := { own := .sw, dts := true, stall := false, count := 0, addr := 0x88 }
        ep2Out := { own := .hw, dts := false, stall := false, count := 1, addr := 0x90 }
        ep2In := { own := .sw, dts := true, stall := false, count := 0, addr := 0x98 } } }

/-- A Setup packet waits for the pump (R340). -/
def setupWaits (packet : BitVec 64) : State :=
  { owned with mem := Memory.write [] 0x00 (setupBytes packet), uir := 0x08, ustat := 0x40 }

/-- A transaction of EP0 waits for the pump, in a stage. -/
def latched (stage : BitVec 2) (ustat : Byte) : State := { owned with stage := stage, uir := 0x08, ustat := ustat }

/-- A Data-In stage with the last byte of table 3 still to be sent. -/
def sending : State := { latched 2 0x30 with srcT := 3, srcOff := 3, remain := 1 }

/-- Configured, with the packet of R191's example waiting for the pump while EP1 OUT waits for the host. -/
def bulkSetup : State :=
  { configured with
    mem := Memory.write [] 0x00 (setupBytes 0x0040000001000680), uir := 0x08, ustat := 0x40
    bds := { configured.bds with ep0Out := { configured.bds.ep0Out with own := .sw, count := 8 } } }

/-- Configured in a Data-In stage, the packet before the last acknowledged. -/
def bulkIn : State := { configured with stage := 2, srcT := 2, srcOff := 45, remain := 1, uir := 0x08, ustat := 0x30 }

/-- Attached, with bus power and no single-ended zero (R283). -/
def inAttached : State := { State.reset with moden := true, vbus := true, devstate := 1 }

/-- Default, the Status IN of SET_ADDRESS(127) acknowledged and waiting for the pump (R203). -/
def addressPending : State :=
  { inDefault with stage := 1, apend := true, paddr := 127, uir := 0x08, ustat := 0x30 }

/-! ## Well-formedness -/

theorem test_wf_bulkWrite_255 : (Instr.bulkWrite 1 (List.replicate 255 0)).wf = true := by
  simp only [Instr.wf, List.length_replicate]
  decide

theorem test_illformed_bulkWrite_256 : (Instr.bulkWrite 1 (List.replicate 256 0)).wf = false := by
  simp only [Instr.wf, List.length_replicate]
  decide

theorem test_wf_out_64 : (Line.out 0 0 true (List.replicate 64 0)).wf = true := by decide

theorem test_illformed_out_65 : (Line.out 0 0 true (List.replicate 65 0)).wf = false := by decide

theorem test_illformed_setup_65 : (Line.setup 0 (List.replicate 65 0)).wf = false := by decide

/-- The ill-formed line has no transition (R354). -/
theorem test_illformed_line_refused : lineStep (.setup 0 (List.replicate 65 0)) State.reset = .refused .notAMove := by
  rfl

/-! ## Decoding: words written out from the encoding tables -/

/-- `80 00 00 00 00 00 02 00` (R234). -/
theorem test_decode_getStatusDev : decode (.setup 0x0002000000000080) = .ok (.getStatusDev 0 0 2) := by decide

/-- `81 00 00 00 00 00 02 00` (R235). -/
theorem test_decode_getStatusIf : decode (.setup 0x0002000000000081) = .ok (.getStatusIf 0 0 2) := by decide

/-- `82 00 00 00 81 00 02 00` (R236). -/
theorem test_decode_getStatusEp : decode (.setup 0x0002008100000082) = .ok (.getStatusEp 0 0x81 2) := by decide

/-- `00 01 01 00 00 00 00 00` (R240). -/
theorem test_decode_clearFeatureDev : decode (.setup 0x0000000000010100) = .ok (.clearFeatureDev 1 0 0) := by decide

/-- `02 01 00 00 01 00 00 00` (R251). -/
theorem test_decode_clearFeatureEp : decode (.setup 0x0000000100000102) = .ok (.clearFeatureEp 0 1 0) := by decide

/-- `00 03 01 00 00 00 00 00` (R241). -/
theorem test_decode_setFeatureDev : decode (.setup 0x0000000000010300) = .ok (.setFeatureDev 1 0 0) := by decide

/-- `02 03 00 00 01 00 00 00` (R250). -/
theorem test_decode_setFeatureEp : decode (.setup 0x0000000100000302) = .ok (.setFeatureEp 0 1 0) := by decide

/-- `00 05 07 00 00 00 00 00` (R255). -/
theorem test_decode_setAddress : decode (.setup 0x0000000000070500) = .ok (.setAddress 7 0 0) := by decide

/-- `80 06 00 02 00 00 09 00` (R258). -/
theorem test_decode_getDescriptor : decode (.setup 0x0009000002000680) = .ok (.getDescriptor 0x0200 0 9) := by decide

/-- `80 08 00 00 00 00 01 00` (R265). -/
theorem test_decode_getConfiguration : decode (.setup 0x0001000000000880) = .ok (.getConfiguration 0 0 1) := by decide

/-- `00 09 01 00 00 00 00 00` (R263). -/
theorem test_decode_setConfiguration : decode (.setup 0x0000000000010900) = .ok (.setConfiguration 1 0 0) := by decide

/-- `81 0A 00 00 00 00 01 00` (R266). -/
theorem test_decode_getInterface : decode (.setup 0x0001000000000A81) = .ok (.getInterface 0 0 1) := by decide

/-- `01 0B 00 00 00 00 00 00` (R267). -/
theorem test_decode_setInterface : decode (.setup 0x0000000000000B01) = .ok (.setInterface 0 0 0) := by decide

/-- `c = 0x01 | ep << 8 | len << 16` (R322). -/
theorem test_decode_bulkWrite : decode (.cmd 0x00020101 [0x48, 0x65]) = .ok (.bulkWrite 1 [0x48, 0x65]) := by decide

/-- `c = 0x02 | ep << 8 | len << 16` (R324). -/
theorem test_decode_bulkRead : decode (.cmd 0x00010202 []) = .ok (.bulkRead 2 1) := by decide

/-- `c = 0x00000003` (R326). -/
theorem test_decode_status : decode (.cmd 0x00000003 []) = .ok .status := by decide

/-- len 18, t 1, bd 1, op 01: `00010010 00 1 001 01` (R116). -/
theorem test_decode_arm : decode (.bdop 0b0001001000100101) = .ok (.arm 1 18 true) := by decide

/-- len 3, bd 2, op 10: `00000011 00 0 010 10` (R116). -/
theorem test_decode_drain : decode (.bdop 0b0000001100001010) = .ok (.drain 2 3) := by decide

/-- bd 5, op 11: `00000000 00 0 101 11` (R116). -/
theorem test_decode_reclaim : decode (.bdop 0b0000000000010111) = .ok (.reclaim 5) := by decide

/-- DEVSTATE 5, MODEN 1, VBUS 0 (R113, R281). -/
theorem test_decode_detach : decode (.pumpin 0x5400) = .ok .detach := by decide

/-- DEVSTATE 0, MODEN 0, VBUS 1 (R113, R281). -/
theorem test_decode_attach : decode (.pumpin 0x0100) = .ok .attach := by decide

/-- DEVSTATE 1, MODEN 1, SE0 0, VBUS 1 (R113, R281). -/
theorem test_decode_powered : decode (.pumpin 0x1500) = .ok .powered := by decide

/-- UIR bit 2, and bit 4 after it in R281's order. -/
theorem test_decode_actv : decode (.pumpin 0x3514) = .ok .actv := by decide

/-- UIR bit 0. -/
theorem test_decode_urst : decode (.pumpin 0x3501) = .ok .urst := by decide

/-- UIR bit 4. -/
theorem test_decode_idle : decode (.pumpin 0x3510) = .ok .idle := by decide

/-- UIR bit 6, and bit 5 after it. -/
theorem test_decode_sof : decode (.pumpin 0x3560) = .ok .sof := by decide

/-- UIR bit 5. -/
theorem test_decode_stall : decode (.pumpin 0x3520) = .ok .stall := by decide

/-- UIR bit 1, and bit 3 after it. -/
theorem test_decode_uerr : decode (.pumpin 0x350A) = .ok .uerr := by decide

/-- UIR bit 3. -/
theorem test_decode_trn : decode (.pumpin 0x3508) = .ok .trn := by decide

/-- ep 0, dir 0, pid 10 (R112). -/
theorem test_decode_trnEp0Setup : decode (.ustat 0b01000000) = .ok .trnEp0Setup := by decide

/-- ep 0, dir 0, pid 00. -/
theorem test_decode_trnEp0Out : decode (.ustat 0b00000000) = .ok .trnEp0Out := by decide

/-- ep 0, dir 1, pid 01. -/
theorem test_decode_trnEp0In : decode (.ustat 0b00110000) = .ok .trnEp0In := by decide

/-- ep 1, dir 0, pid 00. -/
theorem test_decode_trnEp1Out : decode (.ustat 0b00000001) = .ok .trnEp1Out := by decide

/-- ep 2, dir 0, pid 00. -/
theorem test_decode_trnEp2Out : decode (.ustat 0b00000010) = .ok .trnEp2Out := by decide

/-- ep 1, dir 1, pid 01. -/
theorem test_decode_trnEp1In : decode (.ustat 0b00110001) = .ok .trnEp1In := by decide

/-- ep 2, dir 1, pid 01. -/
theorem test_decode_trnEp2In : decode (.ustat 0b00110010) = .ok .trnEp2In := by decide

/-- Refused: a vendor request (R193's example, R231). -/
theorem test_reject_type : decode (.setup 0x0000000000000140) = .error .notStandard := by decide

/-- Refused: SET_ADDRESS with direction IN (R232). -/
theorem test_reject_request : decode (.setup 0x0000000000000580) = .error .noRequestRow := by decide

/-- Refused: opcode 4 (R321). -/
theorem test_reject_command : decode (.cmd 0x00000004 []) = .error .noCommandRow := by decide

/-- Refused: bits 15:12 must be 0 (R114). -/
theorem test_reject_commandField : decode (.cmd 0x00001101 []) = .error .noCommandRow := by decide

/-- Refused: one byte where `len` says two (R114). -/
theorem test_reject_data : decode (.cmd 0x00020101 [0x48]) = .error .badDataLength := by decide

/-- Refused: `op = 00` (R169). -/
theorem test_reject_bdopOp : decode (.bdop 0x0000) = .error .reservedBdop := by decide

/-- Refused: `bd = 6` (R169). -/
theorem test_reject_bdopIndex : decode (.bdop 0x0019) = .error .reservedBdop := by decide

/-- Refused: DRAIN with `t = 1` (R169). -/
theorem test_reject_bdopToggle : decode (.bdop 0x0022) = .error .reservedBdop := by decide

/-- Refused: RECLAIM with `len = 1` (R169). -/
theorem test_reject_bdopLen : decode (.bdop 0x0103) = .error .reservedBdop := by decide

/-- Refused: no branch (R280). -/
theorem test_reject_view : decode (.pumpin 0x3500) = .error .noBranch := by decide

/-- Refused: `pid = 11` (R136). -/
theorem test_reject_ustat : decode (.ustat 0x60) = .error .reservedUstat := by decide

/-- Refused: `ep = 3` (R136). -/
theorem test_reject_ustatEp : decode (.ustat 0x03) = .error .reservedUstat := by decide

/-! ## The opcode table's numbering -/

/-- Row GET_DESCRIPTOR: match `0x0680`, mask `0xFFFF`; every bit above is 0. -/
theorem test_table_getDescriptor : decodeTableWord 16 0x0680 = some (.getDescriptor 0 0 0) := by decide

/-- Row BULK_READ: match `0x00000002`. -/
theorem test_table_bulkRead : decodeTableWord 32 0x00000102 = some (.bulkRead 1 0) := by decide

/-- A word placed where the next step fetches it runs: STATUS right after reset answers 0 (R326, R63). -/
theorem test_fetch_status :
    after (step (State.reset.withFetchWord 32 0x00000003)) (·.resp) = some (some { r := 0, q := [] }) := by decide

/-- GET_CONFIGURATION runs as the first instruction after reset: it is handled, one byte long (R265), clamped to
`wLength = 0`. -/
theorem test_fetch_getConfiguration :
    after (step (State.reset.withFetchWord 16 0x0880)) (fun s => (s.handled, s.bds.ep0In.own, s.bds.ep0In.count))
      = some (true, .hw, 0) := by decide

/-! ## Requests -/

/-- R234: with `RWU = 1` it sends the two bytes `02 00` with DATA1. -/
theorem test_getStatusDev :
    after (exec (.getStatusDev 0 0 2) { owned with rwu := true })
      (fun s => (s.respBuf0, s.respBuf1, s.byteAt 0x40, s.byteAt 0x41, s.bds.ep0In.image))
      = some (0x02, 0x00, some 0x02, some 0x00, 0x00034002) := by decide

/-- R235: `00 00`; another interface is unhandled. -/
theorem test_getStatusIf :
    after (exec (.getStatusIf 0 0 2) owned) (fun s => (s.byteAt 0x40, s.byteAt 0x41, s.handled))
      = some (some 0x00, some 0x00, true) := by decide

/-- R236: with `EPHALT[3] = 1`, EP1 IN sends `01 00`. -/
theorem test_getStatusEp :
    after (exec (.getStatusEp 0 0x81 2) { owned with ephalt := 0b001000 }) (fun s => (s.byteAt 0x40, s.byteAt 0x41))
      = some (some 0x01, some 0x00) := by decide

/-- R253: endpoint 3 is unhandled. -/
theorem test_getStatusEp_absent :
    after (exec (.getStatusEp 0 0x03 2) owned) (fun s => (s.handled, s.bds.ep0Out.stall, s.bds.ep0In.stall))
      = some (false, true, true) := by decide

/-- R240: with `RWU = 1` it leaves `RWU = 0`. -/
theorem test_clearFeatureDev :
    after (exec (.clearFeatureDev 1 0 0) { owned with rwu := true }) (·.rwu)
      = some false := by decide

/-- R251: it leaves `EPHALT[2] = 0`. -/
theorem test_clearFeatureEp :
    after (exec (.clearFeatureEp 0 0x01 0) { owned with ephalt := 0b001100 }) (·.ephalt)
      = some 0b001000 := by decide

/-- R241: it leaves `RWU = 1`. -/
theorem test_setFeatureDev :
    after (exec (.setFeatureDev 1 0 0) owned) (·.rwu) = some true := by decide

/-- R250: EP1 OUT sets `EPHALT[2] = 1`. -/
theorem test_setFeatureEp :
    after (exec (.setFeatureEp 0 0x01 0) owned) (·.ephalt) = some 0b000100 := by decide

/-- R252: EP0 is excluded. -/
theorem test_setFeatureEp_ep0 :
    after (exec (.setFeatureEp 0 0x80 0) owned) (fun s => (s.handled, s.ephalt))
      = some (false, 0) := by decide

/-- R195: `BD[0] = {HW, dts 1, count 64}`, `BD[1] = {HW, dts 1, count 0}`, `STAGE = DataOut`, `APEND = 1`. -/
theorem test_setAddress :
    after (exec (.setAddress 5 0 0) owned)
      (fun s => (s.bds.ep0Out.image, s.bds.ep0In.image, s.stage, s.apend, s.paddr, s.addr))
      = some (0x00030040, 0x00034000, 1, true, 5, 0) := by decide

/-- R255: an address above 127 is unhandled. -/
theorem test_setAddress_128 :
    after (exec (.setAddress 128 0 0) owned) (fun s => (s.handled, s.apend))
      = some (false, false) := by decide

/-- R258: `wLength = 9` sends `09 02 2E 00 01 ...` in one chunk of 9 bytes. -/
theorem test_getDescriptor :
    after (exec (.getDescriptor 0x0200 0 9) owned)
      (fun s => (s.bds.ep0In.count, s.byteAt 0x40, s.byteAt 0x42, s.remain, s.srcT, s.srcOff))
      = some (9, some 0x09, some 0x2E, 0, 2, 9) := by decide

/-- R194: `wLength = 64` gives a chunk of 18 bytes, then `REMAIN = 0`, `SRC = (1, 18)`, `STAGE = DataIn`. -/
theorem test_getDescriptor_device :
    after (exec (.getDescriptor 0x0100 0 64) owned)
      (fun s => (s.bds.ep0In.count, s.remain, s.srcT, s.srcOff, s.stage))
      = some (18, 0, 1, 18, 2) := by decide

/-- R265: after SET_CONFIGURATION(1) it sends the one byte `01`. -/
theorem test_getConfiguration :
    after (exec (.getConfiguration 0 0 1) { owned with config := 1 }) (fun s => (s.bds.ep0In.count, s.byteAt 0x40))
      = some (1, some 0x01) := by decide

/-- R263's example. -/
theorem test_setConfiguration_1 :
    after (exec (.setConfiguration 1 0 0) { owned with devstate := 4 })
      (fun s => (s.devstate, s.config, s.epen, s.bds.ep1Out.image, s.bds.ep2Out.image, s.bds.ep1In.image, s.bds.ep2In.image))
      = some (5, 1, 0b111, 0x00018007, 0x00019001, 0x00028800, 0x00029800) := by decide

/-- R262's example. -/
theorem test_setConfiguration_0 :
    after (exec (.setConfiguration 0 0 0) { owned with devstate := 5, config := 1, epen := 0b111, ephalt := 0b000100 })
      (fun s => (s.devstate, s.config, s.epen, s.bds.ep1Out.own, s.ephalt))
      = some (4, 0, 0b001, .sw, 0) := by decide

/-- R266: it sends `00`. -/
theorem test_getInterface :
    after (exec (.getInterface 0 0 1) owned) (fun s => (s.bds.ep0In.count, s.byteAt 0x40))
      = some (1, some 0x00) := by decide

/-- R267: it is handled. -/
theorem test_setInterface :
    after (exec (.setInterface 0 0 0) owned) (fun s => (s.handled, s.stage))
      = some (true, 1) := by decide

/-- R267: another alternate setting is unhandled. -/
theorem test_setInterface_alt :
    after (exec (.setInterface 1 0 0) owned) (fun s => (s.handled, s.stage))
      = some (false, 0) := by decide

/-! ## Commands and BD operations -/

/-- R322's example: 8 bytes on EP1 answer 7, BDWORD `0x00018807`, and the eighth is not stored. -/
theorem test_bulkWrite :
    after (exec (.bulkWrite 1 [0x48, 0x65, 0x6C, 0x6C, 0x6F, 0x2C, 0x20, 0x57]) configured)
      (fun s => (s.resp, s.bds.ep1In.image, s.byteAt 0x88, s.byteAt 0x8E, s.byteAt 0x8F))
      = some (some { r := 7, q := [] }, 0x00018807, some 0x48, some 0x20, none) := by decide

/-- R321: an endpoint other than 1 or 2 is refused. -/
theorem test_bulkWrite_ep0 :
    after (exec (.bulkWrite 0 []) configured) (·.resp)
      = some (some { r := 0x80000000, q := [] }) := by decide

/-- R324's example: `r = 1`, `Q = 02`, `BD[4] = {HW, dts 1, count 1}`. -/
theorem test_bulkRead :
    after (exec (.bulkRead 2 1)
        { configured with
          mem := [(0x90, 0x02)], bds := { configured.bds with ep2Out := { configured.bds.ep2Out with own := .sw } } })
      (fun s => (s.resp, s.bds.ep2Out.image))
      = some (some { r := 1, q := [0x02] }, 0x00039001) := by decide

/-- R325: outside Configured it answers 0. -/
theorem test_bulkRead_default :
    after (exec (.bulkRead 1 7) inDefault) (fun s => (s.resp, s.bds))
      = some (some { r := 0, q := [] }, inDefault.bds) := by decide

/-- R326's example: `0x00010545`. -/
theorem test_status :
    after (exec .status configured) (·.resp)
      = some (some { r := 0x00010545, q := [] }) := by decide

/-- R161's example: BDWORD `0x00034012`, answer `(1, 18)`. -/
theorem test_arm :
    after (exec (.arm 1 18 true) State.reset) (fun s => (s.bds.ep0In.image, s.bdAnswer))
      = some (0x00034012, some { ok := true, n := 18, bytes := [] }) := by decide

/-- R163: 8 bytes on EP1 are clamped to 7; `t = 0` keeps the toggle. -/
theorem test_arm_clamps :
    after (exec (.arm 2 8 false) State.reset) (·.bds.ep1Out)
      = some { own := .hw, dts := false, stall := false, count := 7, addr := 0x80 } := by decide

/-- R164's example: `(1, 3, 41 42 43)`. -/
theorem test_drain :
    after (exec (.drain 2 3)
        { State.reset with
          mem := [(0x80, 0x41), (0x81, 0x42), (0x82, 0x43), (0x83, 0x44), (0x84, 0x45)]
          bds := { State.reset.bds with ep1Out := { State.reset.bds.ep1Out with count := 5 } } })
      (·.bdAnswer)
      = some (some { ok := true, n := 3, bytes := [0x41, 0x42, 0x43] }) := by decide

/-- R167's example. -/
theorem test_reclaim :
    after (exec (.reclaim 2)
        { State.reset with
          bds := { State.reset.bds with
            ep1Out := { own := .hw, dts := true, stall := false, count := 7, addr := 0x80 } } })
      (·.bds.ep1Out)
      = some { own := .sw, dts := true, stall := false, count := 0, addr := 0x80 } := by decide

/-- R169: a reserved word faults. -/
theorem test_bus_reserved :
    step { State.reset with bdBus := some 0x0018 } = .fault .badBdop := rfl

/-! ## Branches -/

/-- R282. -/
theorem test_attach :
    after (exec .attach { State.reset with vbus := true, se0 := true }) (fun s => (s.moden, s.devstate))
      = some (true, 1) := by decide

/-- R283's example. -/
theorem test_powered :
    after (exec .powered { State.reset with vbus := true, moden := true, devstate := 1 }) (·.devstate)
      = some 2 := by decide

/-- R282's example: one pump step gives `MODEN = 1`, `DEVSTATE = Powered`. -/
theorem test_pump_plugin :
    after (pumpStep { State.reset with vbus := true }) (fun s => (s.moden, s.devstate))
      = some (true, 2) := by decide

/-- R283: while `SE0 = 1` the device stays Attached. -/
theorem test_pump_se0 :
    after (pumpStep { State.reset with vbus := true, se0 := true }) (·.devstate)
      = some 1 := by decide

/-- R284's example. -/
theorem test_detach :
    after (exec .detach { configured with vbus := false, uir := 0x49 })
      (fun s => (s.devstate, s.moden, s.epen, s.bds.ep0Out.own, s.bds.ep1Out.own, s.uir))
      = some (0, false, 0, .sw, .sw, 0) := by decide

/-- R285's example. -/
theorem test_actv :
    after (exec .actv { inDefault with susp := true, uir := 0x44 }) (fun s => (s.susp, s.uir))
      = some (false, 0x40) := by decide

/-- R286's example: from Powered to Default, `EPEN = 0b001`, `BD[0] = {HW, dts 1, count 64}`. -/
theorem test_urst :
    after (exec .urst { State.reset with moden := true, vbus := true, devstate := 2, uir := 0x09 })
      (fun s => (s.devstate, s.addr, s.epen, s.bds.ep0Out.image, s.uir))
      = some (3, 0, 0b001, 0x00030040, 0) := by decide

/-- R287: it sets `SUSP`. -/
theorem test_idle :
    after (exec .idle { inDefault with uir := 0x10 }) (fun s => (s.susp, s.uir))
      = some (true, 0) := by decide

/-- R287: when `ACTV` and `IDLE` are both set in one step, it ends with `SUSP = 1`. -/
theorem test_pump_actv_idle :
    after (pumpStep { inDefault with uir := 0x14 }) (fun s => (s.susp, s.uir))
      = some (true, 0) := by decide

/-- R288's example. -/
theorem test_sof :
    after (exec .sof { inDefault with uir := 0x40 }) (·.uir) = some 0 := by decide

/-- R289's example: the stall state is not changed. -/
theorem test_stall :
    after (exec .stall
        { inDefault with uir := 0x20, bds := inDefault.bds.stallEp0 true })
      (fun s => (s.uir, s.bds.ep0Out.stall))
      = some (0, true) := by decide

/-- R290's example. -/
theorem test_uerr :
    after (exec .uerr { inDefault with uir := 0x02 }) (·.uir) = some 0 := by decide

/-! ## Transactions -/

/-- R291's example, in CFG_DESC: a chunk of 36 bytes, `UIR = 0x00`. -/
theorem test_trn :
    after (exec .trn { latched 2 0x30 with srcT := 2, srcOff := 10, remain := 36 })
      (fun s => (s.uir, s.remain, s.srcOff, s.bds.ep0In.count))
      = some (0, 0, 46, 36) := by decide

/-- R292: below Default it is discarded. -/
theorem test_trn_powered :
    after (exec .trn { latched 2 0x30 with devstate := 2 }) (fun s => (s.uir, s.stage))
      = some (0, 2) := by decide

/-- R191's example: it latches `0x0040000001000680`. -/
theorem test_trnEp0Setup :
    after (exec .trnEp0Setup (setupWaits 0x0040000001000680)) (fun s => (s.setup, s.handled, s.stage))
      = some (0x0040000001000680, true, 2) := by decide

/-- R193's example: both directions stalled. -/
theorem test_trnEp0Setup_vendor :
    after (exec .trnEp0Setup (setupWaits 0x0000000000000140))
      (fun s => (s.bds.ep0Out.image, s.bds.ep0In.image, s.stage, s.handled))
      = some (0x00070040, 0x00074000, 0, false) := by decide

/-- R206's example: `RXTOT = 10`, DATA0 expected next. -/
theorem test_trnEp0Out :
    after (exec .trnEp0Out
        { latched 1 0x00 with
          bds := { owned.bds with ep0Out := { owned.bds.ep0Out with count := 10, dts := true } } })
      (fun s => (s.rxtot, s.bds.ep0Out.image, s.stage))
      = some (10, 0x00010040, 1) := by decide

/-- R200: it ends the Data-In stage. -/
theorem test_trnEp0Out_status :
    after (exec .trnEp0Out (latched 2 0x00)) (fun s => (s.stage, s.bds.ep0Out.own))
      = some (0, .hw) := by decide

/-- R203's example: `ADDR = 5`, `DEVSTATE = Address`. -/
theorem test_trnEp0In_address :
    after (exec .trnEp0In { latched 1 0x30 with apend := true, paddr := 5 })
      (fun s => (s.addr, s.devstate, s.apend, s.stage))
      = some (5, 4, false, 0) := by decide

/-- R199's example: `STAGE = Setup`, `BD[1]` stays `SW`. -/
theorem test_trnEp0In_end :
    after (exec .trnEp0In { latched 2 0x30 with srcT := 1, srcOff := 18 }) (fun s => (s.stage, s.bds.ep0In.own))
      = some (0, .sw) := by decide

/-- R293. -/
theorem test_trnEp1Out :
    after (exec .trnEp1Out { configured with uir := 0x48, ustat := 0x01 }) (·.uir)
      = some 0x40 := by decide

/-- R293. -/
theorem test_trnEp2Out :
    after (exec .trnEp2Out { configured with uir := 0x08, ustat := 0x02 }) (·.uir)
      = some 0 := by decide

/-- R293. -/
theorem test_trnEp1In :
    after (exec .trnEp1In { configured with uir := 0x09, ustat := 0x31 }) (·.uir)
      = some 0x01 := by decide

/-- R293. -/
theorem test_trnEp2In :
    after (exec .trnEp2In { configured with uir := 0x08, ustat := 0x32 }) (·.uir)
      = some 0 := by decide

/-! ## Moves of the environment -/

/-- R340: `ACK`, `USTAT = 0x40`, both EP0 descriptors with the block. -/
theorem test_sie_setup :
    after (lineStep (.setup 0 [0x80, 0x06]) inDefault)
      (fun s => (s.event, s.ustat, s.uir, s.bds.ep0Out.image, s.byteAt 0x01))
      = some (some .ack, 0x40, 0x08, 0x00020002, some 0x06) := by decide

/-- R324's example: `02` at 0x90, `BD[4] = {SW, dts 0, count 1}`, `USTAT = 2`. -/
theorem test_sie_out :
    after (lineStep (.out 5 2 false [0x02]) configured)
      (fun s => (s.event, s.byteAt 0x90, s.bds.ep2Out.image, s.ustat))
      = some (some .ack, some 0x02, 0x00009001, 2) := by decide

/-- R352: the length test comes before the toggle test. -/
theorem test_sie_out_oversize :
    after (lineStep (.out 5 2 true [0x02, 0x03]) configured) (fun s => (s.event, s.uir, s.byteAt 0x90))
      = some (some .noAnswer, 0x02, none) := by decide

/-- R343: acknowledged and discarded. -/
theorem test_sie_out_old_toggle :
    after (lineStep (.out 5 2 true [0x02]) configured) (fun s => (s.event, s.uir, s.byteAt 0x90))
      = some (some .ack, 0, none) := by decide

/-- R345: the packet under its toggle, `USTAT = 0x31`. -/
theorem test_sie_in :
    after (lineStep (.inToken 5 1)
        { configured with
          mem := [(0x88, 0x48)]
          bds := { configured.bds with ep1In := { configured.bds.ep1In with own := .hw, count := 1, dts := false } } })
      (fun s => (s.event, s.ustat, s.uir, s.bds.ep1In.own))
      = some (some (.data false [0x48]), 0x31, 0x08, .sw) := by decide

/-- R45: while `MODEN = 0` the SIE sets no flag. -/
theorem test_sie_flag_off :
    after (lineStep (.flag .sof) State.reset) (·.uir) = some 0 := by decide

/-! ## Witnesses: what meets the hypotheses of each statement -/

/-- SetupIsTakenAfterEveryPumpStep, EveryStepKeepsLegal, LegalStatesNeverStop, BusResetRecovers: a legal state in
Configured. -/
theorem wit_legal_configured : Legal configured := by
  constructor
  · decide
  · decide
  · unfold enablesFit
    decide
  · unfold bdFits
    decide
  · unfold sourceFits
    decide
  · decide
  · decide
  · unfold latchFits
    decide
  · unfold ep0Armed
    decide
  all_goals decide

/-- BulkNeedsConfigured: a legal state outside Configured. -/
theorem wit_legal_default : Legal inDefault := by
  constructor
  · decide
  · decide
  · unfold enablesFit
    decide
  · unfold bdFits
    decide
  · unfold sourceFits
    decide
  · decide
  · decide
  · unfold latchFits
    decide
  · unfold ep0Armed
    decide
  all_goals decide

/-- TrnCompletesInLegalStates: a legal state in Default with a latched SETUP, whose EP0 OUT is back with the block. -/
theorem wit_legal_latched :
    Legal (setupWaits 0x0040000001000680) ∧ 3 ≤ (setupWaits 0x0040000001000680).devstate
      ∧ (setupWaits 0x0040000001000680).uir.getLsbD 3 = true := by
  refine ⟨?_, by decide, by decide⟩
  constructor
  · decide
  · decide
  · unfold enablesFit
    decide
  · unfold bdFits
    decide
  · unfold sourceFits
    decide
  · decide
  · decide
  · unfold latchFits
    decide
  · unfold ep0Armed
    decide
  all_goals decide

/-- TrnCompletesInLegalStates: a legal state in the middle of a Data-In stage, its last byte still to be sent. -/
theorem wit_legal_dataIn :
    Legal { configured with stage := 2, srcT := 2, srcOff := 45, remain := 1, uir := 0x08, ustat := 0x30 } := by
  constructor
  · decide
  · decide
  · unfold enablesFit
    decide
  · unfold bdFits
    decide
  · unfold sourceFits
    decide
  · decide
  · decide
  · unfold latchFits
    decide
  · unfold ep0Armed
    decide
  all_goals decide

/-- EveryStepKeepsLegal: a legal state with a next one, the pump's, a command's and a move's. -/
theorem wit_EveryStepKeepsLegal :
    (∃ t, step configured = .next t)
      ∧ (∃ t, step { configured with agenda := [.cmd 0x00000003 []] } = .next t)
      ∧ ∃ t, step { configured with agenda := [.setup 5 []] } = .next t := ⟨⟨_, rfl⟩, ⟨_, rfl⟩, ⟨_, rfl⟩⟩

/-- LegalStatesNeverStop: a well-formed agenda, its packet as long as a packet can be. -/
theorem wit_LegalStatesNeverStop :
    ∀ l ∈ ([.pump, .out 5 2 false (List.replicate 64 0)] : List Line), l.wf = true := by
  simp [Line.wf]

/-- SetupIsTakenAfterEveryPumpStep: from Configured, and from Default with a request that stalls. -/
theorem wit_SetupIsTakenAfterEveryPumpStep :
    (∃ t, pumpStep configured = .next t ∧ 3 ≤ t.devstate)
      ∧ ∃ t, pumpStep (setupWaits 0x0000000000000140) = .next t ∧ 3 ≤ t.devstate := by
  exact ⟨⟨_, rfl, by decide⟩, ⟨_, rfl, by decide⟩⟩

/-- BusResetRecovers. -/
theorem wit_BusResetRecovers : configured.moden = true ∧ configured.vbus = true := by decide

/-- BulkNeedsConfigured: either bulk endpoint, and a packet as long as a packet can be. -/
theorem wit_BulkNeedsConfigured :
    inDefault.devstate ≠ 5 ∧ (1 : Fin 3) ≠ 0 ∧ (2 : Fin 3) ≠ 0 ∧ (List.replicate 64 (0 : Byte)).length ≤ 64 := by
  simp [inDefault]

/-- BufferRamStaysCanonical: a byte at either end of buffer RAM, and a step that writes between them. -/
theorem wit_BufferRamStaysCanonical :
    Memory.wf [(0, 1), (255, 2)] = true
      ∧ ∃ t, step { configured with mem := [(0, 1), (255, 2)], agenda := [.cmd 0x00010101 [0x48]] } = .next t :=
  ⟨by decide, ⟨_, rfl⟩⟩

/-- ControlReadSendsTheResponse: the device descriptor, and the two bytes of `RESPBUF`, read in Default. -/
theorem wit_ControlReadSendsTheResponse :
    ep0Owned owned ∧ owned.bds.ep0In.stall = false ∧ owned.moden = true ∧ owned.vbus = true
      ∧ owned.epen.getLsbD 0 = true ∧ owned.uir = 0 ∧ 3 ≤ owned.devstate ∧ owned.devstate ≤ 5
      ∧ owned.table 1 = some devDesc ∧ owned.table 0 = some [0, 0] := by
  refine ⟨⟨by decide, by decide⟩, ?_⟩
  refine ⟨by decide, by decide, by decide, by decide, by decide, by decide, by decide, rfl, rfl⟩

/-- ControlReadSendsTheResponse, seen once: GET_CONFIGURATION's answer `01` of R265, then NAK. -/
theorem test_control_read :
    controlRead 2 (answered { owned with respBuf0 := 0x01 } 0 [0x01, 0x00] 1)
      = [some (.data true [0x01]), some .nak] := by decide

/-- The requests' results: the block owns both EP0 descriptors, in Default and, at the other end, in Configured. -/
theorem wit_requests :
    ep0Owned owned ∧ owned.devstate = 3 ∧ ep0Owned { owned with devstate := 5 }
      ∧ ({ owned with devstate := 5 } : State).devstate ≤ 5 := by
  refine ⟨⟨by decide, by decide⟩, by decide, ⟨by decide, by decide⟩, by decide⟩

/-- FailedChecksStallEp0: the first value each check refuses. -/
theorem wit_FailedChecksStallEp0 :
    (1 : BitVec 16) ≠ 0 ∧ (0x0100 : BitVec 16).extractLsb' 8 8 ≠ 0#8 ∧ (0x0010 : BitVec 16).extractLsb' 4 3 ≠ 0#3
      ∧ 2 < ((0x0003 : BitVec 16).extractLsb' 0 4).toNat ∧ (0x0080 : BitVec 16).extractLsb' 0 4 = 0#4
      ∧ (2 : BitVec 16) ≠ 1 ∧ 127 < (0x0080 : BitVec 16).toNat
      ∧ (0x0001 : BitVec 16).extractLsb' 8 8 = 0#8 ∧ 3 < ((0x0400 : BitVec 16).extractLsb' 8 8).toNat
      ∧ ((0x0201 : BitVec 16).extractLsb' 8 8 = 2#8 ∧ (0x0201 : BitVec 16).extractLsb' 0 8 ≠ 0#8)
      ∧ ((0x0303 : BitVec 16).extractLsb' 8 8 = 3#8 ∧ 2 < ((0x0303 : BitVec 16).extractLsb' 0 8).toNat) := by decide

/-- SetAddressIsDeferred: the highest address in Default and Address, and a Status stage with an address pending. -/
theorem wit_SetAddressIsDeferred :
    owned.devstate < 5 ∧ (127 : BitVec 16).toNat ≤ 127 ∧ ({ owned with devstate := 4 } : State).devstate < 5
      ∧ (latched 1 0x30).stage = 1 ∧ ({ latched 1 0x30 with apend := true } : State).apend = true := by decide

/-- RequestFrame: a request that sends and one that stores nothing. -/
theorem wit_RequestFrame :
    (encode (.getDescriptor 0x0200 0 9) = .setup 0x0009000002000680
        ∧ ∃ t, exec (.getDescriptor 0x0200 0 9) owned = .next t)
      ∧ (encode (.setConfiguration 1 0 0) = .setup 0x0000000000010900
        ∧ ∃ t, exec (.setConfiguration 1 0 0) owned = .next t) :=
  ⟨⟨by decide, ⟨_, rfl⟩⟩, ⟨by decide, ⟨_, rfl⟩⟩⟩

/-- RequestsOutsideTheTableAreUnhandled: each other type, and GET_DESCRIPTOR sent to an interface (R232). -/
theorem wit_RequestsOutsideTheTableAreUnhandled :
    (0x0000000000000020 : BitVec 64).extractLsb' 5 2 ≠ 0 ∧ (0x0000000000000140 : BitVec 64).extractLsb' 5 2 ≠ 0
      ∧ (0x0000000000000060 : BitVec 64).extractLsb' 5 2 ≠ 0
      ∧ (0x0000000000000681 : BitVec 64).extractLsb' 0 16
        ∉ ([0x0080, 0x0081, 0x0082, 0x0100, 0x0102, 0x0300, 0x0302, 0x0500, 0x0680, 0x0880, 0x0900, 0x0A81, 0x0B01] :
            List (BitVec 16)) := by decide

/-- RefusedCommandsChangeNothing: a word for each reason, at the ends of its field's values. -/
theorem wit_RefusedCommandsChangeNothing :
    ((0x00000000 : BitVec 32).extractLsb' 0 8 ≠ 1#8 ∧ (0x00000000 : BitVec 32).extractLsb' 0 8 ≠ 2#8
        ∧ (0x00000000 : BitVec 32).extractLsb' 0 8 ≠ 3#8)
      ∧ (0x00001101 : BitVec 32).extractLsb' 12 4 ≠ 0#4 ∧ (0x80000101 : BitVec 32).extractLsb' 24 8 ≠ 0#8
      ∧ ((0x00000103 : BitVec 32).extractLsb' 0 8 = 3#8 ∧ (0x00000103 : BitVec 32).extractLsb' 8 4 ≠ 0#4)
      ∧ ((0x00800003 : BitVec 32).extractLsb' 0 8 = 3#8 ∧ (0x00800003 : BitVec 32).extractLsb' 16 8 ≠ 0#8)
      ∧ ((0x00000002 : BitVec 32).extractLsb' 0 8 ≠ 3#8 ∧ (0x00000002 : BitVec 32).extractLsb' 8 4 ≠ 1#4
        ∧ (0x00000002 : BitVec 32).extractLsb' 8 4 ≠ 2#4)
      ∧ ((0x00FF0101 : BitVec 32).extractLsb' 0 8 = 1#8
        ∧ ([] : List Byte).length ≠ ((0x00FF0101 : BitVec 32).extractLsb' 16 8).toNat)
      ∧ ((0x00010202 : BitVec 32).extractLsb' 0 8 ≠ 1#8 ∧ ([0] : List Byte).length ≠ 0) := by decide

/-- DecodeOfEncode: the longest command. -/
theorem wit_DecodeOfEncode : (Instr.bulkWrite 2 (List.replicate 255 0xFF)).wf = true := by
  simp only [Instr.wf, List.length_replicate]
  decide

/-- EncodeOfDecode: a word of each port; the latch with its bit 7 set. -/
theorem wit_EncodeOfDecode :
    decodeSetup 0xFFFFFFFFFFFF0B01 = .ok (.setInterface 0xFFFF 0xFFFF 0xFFFF)
      ∧ decodeCmd 0x00000F01 [] = .ok (.bulkWrite 15 []) ∧ decodeBdop 0xFF35 = .ok (.arm 5 255 true)
      ∧ decodeUstat 0xB1 = .ok .trnEp1In := by decide

/-- StepRunsTheDecodedWord: a word on the bus, a command, a line, an empty agenda. -/
theorem wit_StepRunsTheDecodedWord :
    (({ State.reset with bdBus := some 0x1225 } : State).bdBus = some 0x1225
        ∧ decodeBdop 0x1225 = .ok (.arm 1 18 true))
      ∧ (State.reset.bdBus = none ∧ decodeCmd 0x00000003 [] = .ok .status)
      ∧ State.reset.agenda = [] := by decide

/-- PumpRunsTheDecodedBranch: the first branch, the last, and no branch. -/
theorem wit_PumpRunsTheDecodedBranch :
    (decodePumpin ({ configured with vbus := false } : State).view = .ok .detach)
      ∧ (decodePumpin ({ configured with uir := 0x08 } : State).view = .ok .trn)
      ∧ (configured.devOk = true ∧ decodePumpin configured.view = .error .noBranch) := by decide

/-- TrnRunsTheLatchedRow: a row, below Default, and no row. -/
theorem wit_TrnRunsTheLatchedRow :
    (3 ≤ (latched 0 0x32).devstate ∧ decodeUstat (latched 0 0x32).ustat = .ok .trnEp2In)
      ∧ ({ latched 0 0x32 with devstate := 2 } : State).devstate < 3
      ∧ decodeUstat (latched 0 0x33).ustat = .error .reservedUstat := by decide

/-- SetupRunsTheDecodedRequest. -/
theorem wit_SetupRunsTheDecodedRequest :
    (setupWaits 0x0040000001000680).bds.ep0Out.count = 8
      ∧ decodeSetup (latchSetup (setupWaits 0x0040000001000680)).setup = .ok (.getDescriptor 0x0100 0 0x40) := by decide

/-- ArmHandsOver, DrainCopiesOut: a descriptor with either owner. -/
theorem wit_ArmHandsOver : (configured.bd 1).own = .sw ∧ (configured.bd 0).own = .hw := by decide

/-- BlockLeavesSieDescriptors: ARM of a descriptor the SIE owns; the Setup handler, by itself, as a request, and from the
TRN branch of a legal state, beside a bulk descriptor of the SIE; an EP0 IN transaction from the TRN branch beside EP0
OUT. -/
theorem wit_BlockLeavesSieDescriptors :
    ((configured.bd 0).own = .hw ∧ (∃ t, exec (.arm 0 0 true) configured = .next t)
        ∧ (∀ packet, encode (.arm 0 0 true) ≠ .setup packet) ∧ ¬ runs configured (.arm 0 0 true) .trnEp0Setup
        ∧ ¬ runs configured (.arm 0 0 true) .trnEp0In)
      ∧ ((bulkSetup.bd 2).own = .hw ∧ ep0Owned bulkSetup ∧ runs bulkSetup .trnEp0Setup .trnEp0Setup
        ∧ runs bulkSetup .trn .trnEp0Setup
        ∧ (latchSetup bulkSetup).setup.extractLsb' 0 16 ≠ 0x0900#16
        ∧ (∃ t, exec .trnEp0Setup bulkSetup = .next t) ∧ (∃ t, exec .trn bulkSetup = .next t)
        ∧ ∃ t, exec (.getDescriptor 0x0100 0 64) bulkSetup = .next t)
      ∧ ((bulkIn.bd 0).own = .hw ∧ runs bulkIn .trn .trnEp0In ∧ bulkIn.bds.ep0In.own = .sw
        ∧ ∃ t, exec .trn bulkIn = .next t) := by
  refine ⟨⟨by decide, ⟨_, rfl⟩, by simp [encode], by simp [runs], by simp [runs]⟩,
    ⟨by decide, ⟨by decide, by decide⟩, .inl rfl, .inr ⟨rfl, by decide, by decide⟩, by decide, ⟨_, rfl⟩, ⟨_, rfl⟩,
      ⟨_, rfl⟩⟩,
    by decide, .inr ⟨rfl, by decide, by decide⟩, by decide, ⟨_, rfl⟩⟩

/-- BulkWriteQueues, BulkReadTakes: a descriptor the block owns, one the SIE owns, and a state outside Configured. -/
theorem wit_BulkWriteQueues :
    configured.devstate = 5 ∧ (configured.bd (bdOf 1 .inward)).own = .sw
      ∧ (configured.bd (bdOf 2 .outward)).own = .hw ∧ inDefault.devstate ≠ 5
      ∧ (({ configured with bds := configured.bds.reinitBulk } : State).bd (bdOf 2 .outward)).own = .sw := by decide

/-- StatusReports, at the last stage and the last device state. -/
theorem wit_StatusReports :
    ({ configured with stage := 2 } : State).devstate ≤ 5 ∧ ({ configured with stage := 2 } : State).stage ≤ 2 := by
  decide

/-- PortFrame: each of the six runs. -/
theorem wit_PortFrame :
    (∃ t, exec (.arm 1 0 true) configured = .next t) ∧ (∃ t, exec (.drain 1 255) configured = .next t)
      ∧ (∃ t, exec (.reclaim 0) configured = .next t) ∧ (∃ t, exec .status configured = .next t)
      ∧ (∃ t, exec (.bulkRead 2 1) configured = .next t) ∧ ∃ t, exec (.bulkWrite 1 [0x48]) configured = .next t :=
  ⟨⟨_, rfl⟩, ⟨_, rfl⟩, ⟨_, rfl⟩, ⟨_, rfl⟩, ⟨_, rfl⟩, ⟨_, rfl⟩⟩

/-- AttachEnablesAndPowers. -/
theorem wit_AttachEnablesAndPowers :
    let s : State := { State.reset with vbus := true, uir := 0x80 }
    s.devstate = 0 ∧ s.vbus = true ∧ s.moden = false ∧ s.uir &&& 0x7F = 0 := by decide

/-- DetachReinitialises: bus power lost in Configured. -/
theorem wit_DetachReinitialises :
    let s : State := { configured with vbus := false }
    s.devstate ≤ 5 ∧ s.vbus = false ∧ s.moden = true := by decide

/-- BusResetReinitialises, at both ends of the device states. -/
theorem wit_BusResetReinitialises : configured.devstate = 5 ∧ State.reset.devstate = 0 := by decide

/-- PumpStepClearsEveryFlag: a step with every flag set. -/
theorem wit_PumpStepClearsEveryFlag : ∃ t, pumpStep { configured with uir := 0x7F } = .next t := ⟨_, rfl⟩

/-- BulkTransactionsOnlyClearTrn. -/
theorem wit_BulkTransactionsOnlyClearTrn :
    encode .trnEp2In = .ustat (({ configured with ustat := 0x32 } : State).ustat &&& 0x7F) := by decide

/-- Ep0OutByStage and Ep0InByStage: each stage; in DataIn a table with one byte left to send, and with none. -/
theorem wit_Ep0ByStage :
    (latched 0 0x00).bds.ep0Out.own = .sw ∧ (latched 1 0x00).stage = 1 ∧ (latched 2 0x00).stage = 2
      ∧ (latched 1 0x30).apend = false ∧ (latched 2 0x30).remain = 0
      ∧ (sending.stage = 2 ∧ sending.remain ≠ 0 ∧ sending.bds.ep0In.own = .sw
        ∧ sending.table sending.srcT = some [0x04, 0x03, 0x09, 0x04]
        ∧ sending.srcOff.toNat + sending.remain.toNat ≤ ([0x04, 0x03, 0x09, 0x04] : List Byte).length) := by decide

/-- SetupHandlerCompletes: with 8 bytes, with 8 bytes of no request, and with another count. -/
theorem wit_SetupHandlerCompletes :
    ep0Owned owned ∧ owned.devstate ≤ 5 ∧ owned.bds.ep0Out.count = 8
      ∧ (ep0Owned (setupWaits 0x0000000000000140) ∧ (setupWaits 0x0000000000000140).bds.ep0Out.count = 8
        ∧ decodeSetup (latchSetup (setupWaits 0x0000000000000140)).setup = .error .notStandard)
      ∧ ep0Owned State.reset ∧ State.reset.bds.ep0Out.count ≠ 8 := by
  refine ⟨⟨by decide, by decide⟩, by decide, by decide, ⟨⟨by decide, by decide⟩, by decide, by decide⟩,
    ⟨by decide, by decide⟩, by decide⟩

/-- TransactionFrame, RegistersKeepTheirWriters, SuspendIsOrthogonal: each of the four runs. -/
theorem wit_TransactionFrame :
    (∃ t, exec .trnEp0Out (latched 2 0x00) = .next t) ∧ (∃ t, exec .trnEp0In (latched 1 0x30) = .next t)
      ∧ (∃ t, exec .trnEp0Setup (setupWaits 0x0040000001000680) = .next t)
      ∧ ∃ t, exec .trn (latched 2 0x30) = .next t := ⟨⟨_, rfl⟩, ⟨_, rfl⟩, ⟨_, rfl⟩, ⟨_, rfl⟩⟩

/-- DeviceStateEdges: each kind of edge is taken. -/
theorem wit_DeviceStateEdges :
    after (exec .attach { State.reset with vbus := true }) (·.devstate) = some 1
      ∧ after (exec .powered inAttached) (·.devstate) = some 2
      ∧ after (exec .urst { configured with uir := 0x01 }) (·.devstate) = some 3
      ∧ after (exec .detach { configured with vbus := false }) (·.devstate) = some 0
      ∧ after (exec .trnEp0In addressPending) (·.devstate) = some 4
      ∧ after (exec .trn addressPending) (·.devstate) = some 4
      ∧ after (exec .trn { addressPending with paddr := 0, devstate := 4 }) (·.devstate) = some 3
      ∧ after (exec .trn (setupWaits 0x0000000000010900)) (·.devstate) = some 5
      ∧ after (exec (.setConfiguration 0 0 0) configured) (·.devstate) = some 4 := by decide

/-- DeviceStateEdges, EveryStepKeepsLegal: the tests of those branches hold there. -/
theorem wit_branch_tests :
    (∀ row ∈ branchRows, row.2.2 = Instr.attach → ({ State.reset with vbus := true } : State).view &&& row.1 = row.2.1)
      ∧ (∀ row ∈ branchRows, row.2.2 = Instr.powered → inAttached.view &&& row.1 = row.2.1)
      ∧ (∀ row ∈ branchRows, row.2.2 = Instr.urst →
          ({ configured with uir := 0x01 } : State).view &&& row.1 = row.2.1)
      ∧ (∀ row ∈ branchRows, row.2.2 = Instr.detach →
          ({ configured with vbus := false } : State).view &&& row.1 = row.2.1)
      ∧ ∀ row ∈ branchRows, row.2.2 = Instr.trn → addressPending.view &&& row.1 = row.2.1 := by decide

/-- DeviceStateEdges, EveryStepKeepsLegal: the states in which wit_DeviceStateEdges runs a branch are legal. -/
theorem wit_legal_edges :
    (Legal { State.reset with vbus := true } ∧ Legal inAttached)
      ∧ (Legal { configured with uir := 0x01 } ∧ Legal { configured with vbus := false })
      ∧ Legal addressPending ∧ runs addressPending .trn .trnEp0In := by
  refine ⟨⟨?_, ?_⟩, ⟨?_, ?_⟩, ?_, .inr ⟨rfl, by decide, by decide⟩⟩
  all_goals
    constructor
    · decide
    · decide
    · unfold enablesFit
      decide
    · unfold bdFits
      decide
    · unfold sourceFits
      decide
    · decide
    · decide
    · unfold latchFits
      decide
    · unfold ep0Armed
      decide
    all_goals decide

/-- RegistersKeepTheirWriters: each of the three registers is written. -/
theorem wit_RegistersKeepTheirWriters :
    after (exec .trn { latched 1 0x30 with apend := true, paddr := 127 }) (·.addr) = some 127
      ∧ after (exec .attach State.reset) (·.moden) = some true
      ∧ after (exec .trn (setupWaits 0x0000000000010900)) (·.epen) = some 0b111 := by decide

/-- SuspendIsOrthogonal. -/
theorem wit_SuspendIsOrthogonal : Instr.bulkWrite 1 [] ≠ .status ∧ ∃ t, exec (.bulkWrite 1 []) configured = .next t :=
  ⟨by decide, ⟨_, rfl⟩⟩

/-- ReservedValuesFault: each reserved value with each of its readers, and a chunk one byte too long. -/
theorem wit_ReservedValuesFault :
    (({ configured with stage := 3 } : State).devstate ≤ 5
        ∧ runs (latched 3 0x00) .trn .trnEp0Out ∧ runs (latched 3 0x30) .trn .trnEp0In)
      ∧ (6 ≤ ({ configured with devstate := 6 } : State).devstate
        ∧ 6 ≤ ({ owned with devstate := 7 } : State).devstate
        ∧ ({ owned with devstate := 7 } : State).bds.ep0Out.count = 8
        ∧ encode (.setInterface 0 0 0) = .setup 0x0000000000000B01)
      ∧ (({ sending with srcOff := 4 } : State).stage = 2 ∧ ({ sending with srcOff := 4 } : State).remain ≠ 0
        ∧ (∀ b, ({ sending with srcOff := 4 } : State).table sending.srcT = some b →
            b.length < (4 : Byte).toNat + min sending.remain.toNat 64)
        ∧ runs { sending with srcOff := 4 } .trn .trnEp0In)
      ∧ ({ sending with srcT := 6 } : State).table 6 = none := by
  refine ⟨⟨by decide, .inr ⟨rfl, by decide, by decide⟩, .inr ⟨rfl, by decide, by decide⟩⟩, by decide,
    ⟨by decide, by decide, ?_, .inr ⟨rfl, by decide, by decide⟩⟩, by decide⟩
  intro b h
  have h : some [0x04, 0x03, 0x09, 0x04] = some b := h
  cases h
  decide

/-- BufferRamReadsBackWrites: up to the last byte. -/
theorem wit_BufferRamReadsBackWrites : (0xFC : Byte).toNat + ([1, 2, 3, 4] : List Byte).length ≤ 256 := by decide

/-- DescriptorTablesFit: the last string table. -/
theorem wit_DescriptorTablesFit : State.reset.table 5 = some str2Desc := rfl

/-- Ep0HaltIsHardwired: with every other bit set, and an instruction that writes the register. -/
theorem wit_Ep0HaltIsHardwired :
    ({ owned with ephalt := 0b111100 } : State).ephalt &&& 0b000011 = 0
      ∧ ∃ t, exec (.clearFeatureEp 0 0x0082 0) { owned with ephalt := 0b111100 } = .next t := ⟨by decide, ⟨_, rfl⟩⟩

/-- TokensWaitForTheirTurn: each reason, at the first endpoint that is absent. -/
theorem wit_TokensWaitForTheirTurn :
    State.reset.moden = false ∧ (6 : BitVec 7) ≠ configured.addr ∧ 2 < (3 : BitVec 4).toNat
      ∧ inDefault.epen.getLsbD (1 : BitVec 4).toNat = false ∧ (latched 0 0x00).uir.getLsbD 3 = true := by decide

/-- SetupMoveTaken, OutMoveAnswered, InMoveAnswered: served tokens, with each answer possible. -/
theorem wit_served :
    served inDefault 0 0 ∧ inDefault.bds.ep0Out.own = .hw ∧ served owned 0 0 ∧ owned.bds.ep0Out.own = .sw
      ∧ served configured 5 2 ∧ (configured.bd (bdOf 2 .outward)).own = .hw
      ∧ (configured.bd (bdOf 2 .outward)).count.toNat = 1 ∧ (configured.bd (bdOf 2 .outward)).dts = false
      ∧ served { configured with ephalt := 0b110000 } 5 2
      ∧ served { configured with bds := configured.bds.stallEp0 true } 5 0 := by
  unfold served
  decide

/-- SieKeepsToItsSide: a flag and each token. -/
theorem wit_SieKeepsToItsSide :
    (Line.setup 0 [] ≠ .pump ∧ (∀ c data, Line.setup 0 [] ≠ .cmd c data) ∧ ∀ v z, Line.setup 0 [] ≠ .bus v z)
      ∧ (∃ t, lineStep (.setup 0 []) inDefault = .next t) ∧ (∃ t, lineStep (.flag .sof) inDefault = .next t)
      ∧ (∃ t, lineStep (.out 5 2 false [1]) configured = .next t)
      ∧ (∃ t, lineStep (.inLost 5 2) configured = .next t)
      ∧ after (lineStep (.setup 0 []) inDefault) (·.bds.ep0Out.count) = some 0 ∧ inDefault.bds.ep0Out.count ≠ 0
      ∧ after (lineStep (.out 5 1 false [1]) configured) (·.bds.ep1Out.count) = some 1
      ∧ configured.bds.ep1Out.count ≠ 1 :=
  ⟨by simp, ⟨_, rfl⟩, ⟨_, rfl⟩, ⟨_, rfl⟩, ⟨_, rfl⟩, by decide⟩

end Sys2Proof.Tests
end

section
/-! PROOFS. What the commands and the moves of the SIE can do, said once: each lemma lists the ways in which one of them
ends. -/

namespace Sys2Proof.Machine

/-! ## Commands -/

/-- The descriptors of the command port are the bulk ones (R321). -/
theorem two_le_bdOf_of_bulkEp {ep : BitVec 4} {e : Fin 3} (h : bulkEp ep = some e) (d : Dir) : 2 ≤ (bdOf e d).val := by
  have hbulk : e = 1 ∨ e = 2 := by
    unfold bulkEp at h
    split_ifs at h <;> cases h <;> simp
  rcases hbulk with rfl | rfl <;> cases d <;> decide

/-- BULK_WRITE answers, and at most fills and arms the IN descriptor of its endpoint (R321 to R323). -/
theorem execBulkWrite_eq_next {ep : BitVec 4} {data : List Byte} {s t : State} (h : execBulkWrite ep data s = .next t) :
    (∃ r q, t = s.answer r q)
      ∨ ∃ e m r q, bulkEp ep = some e
        ∧ t = (((s.fill (bdOf e .inward) data).arm (bdOf e .inward) m true).answer r q) := by
  unfold execBulkWrite at h
  split at h
  · cases h
    exact .inl ⟨_, _, rfl⟩
  · rename_i e he
    rw [withDevState_eq_next] at h
    obtain ⟨-, h⟩ := h
    split at h
    · cases h
      exact .inl ⟨_, _, rfl⟩
    · split at h <;> cases h
      · exact .inl ⟨_, _, rfl⟩
      · exact .inr ⟨e, _, _, _, he, rfl⟩

/-- BULK_READ answers, and at most counts draws and arms the OUT descriptor of its endpoint (R321, R324). -/
theorem execBulkRead_eq_next {ep : BitVec 4} {len : Byte} {s t : State} (h : execBulkRead ep len s = .next t) :
    (∃ r q, t = s.answer r q)
      ∨ ∃ e n m r q, bulkEp ep = some e ∧ t = (((s.setDraws n).arm (bdOf e .outward) m true).answer r q) := by
  unfold execBulkRead at h
  split at h
  · cases h
    exact .inl ⟨_, _, rfl⟩
  · rename_i e he
    rw [withDevState_eq_next] at h
    obtain ⟨-, h⟩ := h
    split at h
    · cases h
      exact .inl ⟨_, _, rfl⟩
    · split at h <;> cases h
      · exact .inl ⟨_, _, rfl⟩
      · exact .inr ⟨e, _, _, _, _, he, rfl⟩

/-- STATUS answers (R326). -/
theorem execStatus_eq_next {s t : State} (h : execStatus s = .next t) : t = s.answer s.statusWord [] := by
  unfold execStatus at h
  rw [withDevState_eq_next, withStage_eq_next] at h
  obtain ⟨-, -, -, h⟩ := h
  cases h
  rfl

/-- The command port decodes its three commands alone (R114). -/
theorem decodeCmd_eq_ok {c : BitVec 32} {data : List Byte} {i : Instr} (h : decodeCmd c data = .ok i) :
    i = .bulkWrite (cmdEp c) data ∨ i = .bulkRead (cmdEp c) (cmdLen c) ∨ i = .status := by
  unfold decodeCmd at h
  split_ifs at h <;> cases h <;> simp

/-! ## Moves of the SIE -/

/-- A SETUP is answered without effect, or its packet is taken and both EP0 descriptors are handed back (R340). -/
theorem sieSetup_cases (a : BitVec 7) (bytes : List Byte) (s : State) :
    (∃ e, sieSetup a bytes s = s.emit e)
      ∨ ∃ e, tokenGate s a 0 = .ok e ∧ (s.bd 0).own = .hw
        ∧ sieSetup a bytes s =
          (((s.receive 0 bytes).setBds
            ((s.receive 0 bytes).bds.set 1 { (s.receive 0 bytes).bd 1 with own := .sw })).complete
              0 ustatSetup).emit .ack := by
  unfold sieSetup
  split
  · exact .inl ⟨_, rfl⟩
  · rename_i e hgate
    split
    · exact .inl ⟨_, rfl⟩
    · rename_i hown
      exact .inr ⟨e, hgate, hown, rfl⟩

/-- An OUT is answered without effect, stalled, found too long, or taken (R342, R343, R344, R346, R352). -/
theorem sieOut_cases (a : BitVec 7) (ep : BitVec 4) (d : Bool) (bytes : List Byte) (s : State) :
    (∃ e, sieOut a ep d bytes s = s.emit e) ∨ sieOut a ep d bytes s = sieStall s
      ∨ sieOut a ep d bytes s = (s.setUir uirUERR).emit .noAnswer
      ∨ ∃ e, tokenGate s a ep = .ok e ∧ bytes.length ≤ (s.bd (bdOf e .outward)).count.toNat
        ∧ sieOut a ep d bytes s
          = ((s.receive (bdOf e .outward) bytes).complete (bdOf e .outward) (ustatOut e)).emit .ack := by
  unfold sieOut
  split
  · exact .inl ⟨_, rfl⟩
  · rename_i e hgate
    dsimp only
    by_cases hhalt : s.halted (bdOf e .outward) = true
    · exact .inr (.inl (if_pos hhalt))
    rw [if_neg hhalt]
    split
    · exact .inl ⟨_, rfl⟩
    · split_ifs with hstall hlong htoggle
      · exact .inr (.inl rfl)
      · exact .inr (.inr (.inl rfl))
      · exact .inl ⟨_, rfl⟩
      · exact .inr (.inr (.inr ⟨e, hgate, Nat.le_of_not_lt hlong, rfl⟩))

/-- An IN is answered without effect, stalled, sent, or sent and completed (R345 to R347). -/
theorem sieIn_cases (acked : Bool) (a : BitVec 7) (ep : BitVec 4) (s : State) :
    (∃ e, sieIn acked a ep s = s.emit e) ∨ sieIn acked a ep s = sieStall s
      ∨ ∃ e, tokenGate s a ep = .ok e
        ∧ (sieIn acked a ep s = sieSend (bdOf e .inward) s
          ∨ sieIn acked a ep s = (sieSend (bdOf e .inward) s).complete (bdOf e .inward) (ustatIn e)) := by
  unfold sieIn
  split
  · exact .inl ⟨_, rfl⟩
  · rename_i e hgate
    dsimp only
    by_cases hhalt : s.halted (bdOf e .inward) = true
    · exact .inr (.inl (if_pos hhalt))
    rw [if_neg hhalt]
    split
    · exact .inl ⟨_, rfl⟩
    · split_ifs with hstall hacked
      · exact .inr (.inl rfl)
      · exact .inr (.inr ⟨e, hgate, .inr rfl⟩)
      · exact .inr (.inr ⟨e, hgate, .inl rfl⟩)

end Sys2Proof.Machine
end

section
/-! PROOFS. Every step keeps a legal state legal (10_state.md R61). `Sound` is what `Legal` says beside the owners of
the EP0 descriptors; every operation keeps it by itself. The owners are then followed through the SIE's completions and
the handlers of the TRN branch alone. -/

namespace Sys2Proof.Machine

/-! ## Descriptors that fit (I3, I5) -/

/-- (I3) and (I5) of the descriptor at one index. -/
structure Bd.Fits (b : Bd) (i : BdIndex) : Prop where
  count : b.count.toNat ≤ maxPkt i
  addr : b.addr = baseOf i
  quiet : 2 ≤ i.val → b.stall = false

/-- (I3) and (I5) of the whole file. -/
def BdFile.Fits (f : BdFile) : Prop := ∀ i, (f.get i).Fits i

theorem Bd.Fits.armed {b : Bd} {i : BdIndex} (h : b.Fits i) (len : Byte) (t : Bool) : (b.armed i len t).Fits i := by
  cases ho : b.own with
  | hw => rwa [Bd.armed_of_hw ho]
  | sw =>
    rw [Bd.armed_of_sw ho]
    exact ⟨by simp [clampPkt_toNat], rfl, h.quiet⟩

theorem Bd.fits_reinit (b : Bd) (i : BdIndex) (d : Bool) : (b.reinit i d).Fits i :=
  ⟨Nat.zero_le _, rfl, fun _ => rfl⟩

theorem BdFile.Fits.set {f : BdFile} {i : BdIndex} {b : Bd} (h : f.Fits) (hb : b.Fits i) : (f.set i b).Fits := by
  intro j
  by_cases hj : j = i
  · subst hj
    rwa [BdFile.get_set_same]
  · rw [BdFile.get_set_other _ _ hj]
    exact h j

theorem BdFile.Fits.arm {f : BdFile} (h : f.Fits) (i : BdIndex) (len : Byte) (t : Bool) : (f.arm i len t).Fits :=
  h.set ((h i).armed len t)

theorem BdFile.fits_reinitAll (f : BdFile) : f.reinitAll.Fits := by
  intro i
  rw [BdFile.get_reinitAll]
  exact Bd.fits_reinit ..

theorem BdFile.Fits.reinitBulk {f : BdFile} (h : f.Fits) : f.reinitBulk.Fits := by
  intro i
  by_cases hi : i.val < 2
  · rw [BdFile.get_reinitBulk_ep0 f hi]
    exact h i
  · rw [BdFile.get_reinitBulk_bulk f (by omega)]
    exact Bd.fits_reinit ..

/-- The stall flag of an EP0 descriptor is free. -/
theorem BdFile.Fits.stallEp0 {f : BdFile} (h : f.Fits) (b : Bool) : (f.stallEp0 b).Fits :=
  have h0 : ({ f.ep0Out with stall := b } : Bd).Fits 0 := ⟨(h 0).count, (h 0).addr, by simp⟩
  have h1 : ({ f.ep0In with stall := b } : Bd).Fits 1 := ⟨(h 1).count, (h 1).addr, by simp⟩
  (h.set h0).set h1

theorem BdFile.Fits.clearEp0Toggles {f : BdFile} (h : f.Fits) : f.clearEp0Toggles.Fits :=
  have h0 : ({ f.ep0Out with dts := false } : Bd).Fits 0 := { h 0 with }
  have h1 : ({ f.ep0In with dts := false } : Bd).Fits 1 := { h 1 with }
  (h.set h0).set h1

/-- Handing a descriptor back changes nothing but its owner. -/
theorem BdFile.Fits.handBack {f : BdFile} (h : f.Fits) (i : BdIndex) :
    (f.set i { f.get i with own := .sw }).Fits :=
  have hi : ({ f.get i with own := .sw } : Bd).Fits i := { h i with }
  h.set hi

theorem State.arm_bd_other (s : State) {i j : BdIndex} (len : Byte) (t : Bool) (h : j ≠ i) :
    (s.arm i len t).bd j = s.bd j :=
  BdFile.get_arm_other _ _ _ h

theorem State.arm_own_same (s : State) (i : BdIndex) (len : Byte) (t : Bool) : ((s.arm i len t).bd i).own = .hw := by
  simp [State.bd]

end Sys2Proof.Machine

namespace Sys2Proof.Safety

open Sys2Proof.Machine

/-! ## `Legal` without the owners -/

/-- The endpoint enables (I2) gives a device state. -/
def epenFor (d : BitVec 3) : BitVec 3 := if d = devConfigured then 0b111 else if devDefault ≤ d then 0b001 else 0b000

theorem enablesFit_iff (s : State) : enablesFit s ↔ s.epen = epenFor s.devstate := by
  unfold enablesFit State.enabled State.atLeastDefault
  generalize s.epen = e, s.devstate = d
  revert e d
  decide

/-- The rest of the response lies in its table: (I4) without its condition on the stage. -/
def inTable (s : State) : Prop := s.remain.toNat ≤ 255 ∧ s.srcOff.toNat + s.remain.toNat ≤ tlen s.srcT

/-- What `Legal` says of a state beside who owns the descriptors of EP0. -/
structure Sound (s : State) : Prop where
  stageLegal : s.stage ≤ stageDataIn
  devLegal : s.devstate ≤ devConfigured
  enables : s.epen = epenFor s.devstate
  bds : s.bds.Fits
  source : s.stage = stageDataIn → inTable s
  modenFits : s.moden = (s.devstate != devDetached)
  pendingFits : s.apend = true → s.devstate = devDefault ∨ s.devstate = devAddress
  haltHardwired : s.ephalt &&& 0b000011 = 0
  selfpwrZero : s.selfpwr = false
  memory : s.mem.wf = true
  busQuiet : s.bdBus = none

theorem legal_iff (s : State) : Legal s ↔ Sound s ∧ latchFits s ∧ ep0Armed s := by
  constructor
  · intro h
    exact ⟨{ h with
      enables := (enablesFit_iff s).1 h.enables
      bds := fun i => ⟨(h.bdsFit i).1, (h.bdsFit i).2, h.bulkNotStalled i⟩ }, h.latch, h.armed⟩
  · rintro ⟨h, hlatch, harmed⟩
    exact { h with
      enables := (enablesFit_iff s).2 h.enables
      bdsFit := fun i => ⟨(h.bds i).count, (h.bds i).addr⟩
      bulkNotStalled := fun i => (h.bds i).quiet
      latch := hlatch
      armed := harmed }

theorem Legal.sound {s : State} (h : Legal s) : Sound s := ((legal_iff s).1 h).1

/-- The flags of `UIR` are free in a sound state. -/
theorem Sound.clearUir {s : State} (h : Sound s) (k : Nat) : Sound (s.clearUir k) := { h with }

theorem Sound.arm {s : State} (h : Sound s) (i : BdIndex) (len : Byte) (t : Bool) : Sound (s.arm i len t) :=
  { h with bds := h.bds.arm i len t }

theorem Sound.fill {s : State} (h : Sound s) (i : BdIndex) (bytes : List Byte) : Sound (s.fill i bytes) :=
  { h with memory := Memory.wf_write _ _ h.memory }

/-! ## The control engine -/

theorem Sound.latchSetup {s : State} (h : Sound s) : Sound (latchSetup s) := { h with }

theorem Sound.contextReset {s : State} (h : Sound s) : Sound (contextReset s) :=
  { h with
    stageLegal := by simp [Machine.contextReset]
    source := by simp [Machine.contextReset]
    bds := (h.bds.stallEp0 false).clearEp0Toggles
    pendingFits := by simp [Machine.contextReset] }

/-- A stage without data leaves (I4) nothing to say. -/
theorem Sound.setStage {s : State} (h : Sound s) {st : BitVec 2} (hst : st = stageSetup ∨ st = stageDataOut) :
    Sound { s with stage := st } :=
  { h with
    stageLegal := by rcases hst with rfl | rfl <;> simp
    source := by rcases hst with rfl | rfl <;> simp }

theorem Sound.unhandled {s : State} (h : Sound s) : Sound (unhandled s) :=
  have hbds : (((s.bds.stallEp0 true).arm 0 64 true).arm 1 0 true).Fits := ((h.bds.stallEp0 true).arm 0 _ _).arm 1 _ _
  { h.setStage (.inl rfl) with bds := hbds }

theorem Sound.startOut {s : State} (h : Sound s) : Sound (startOut s) :=
  ((h.arm 0 64 true).arm 1 0 true).setStage (.inr rfl)

/-- Sending a chunk moves the offset and the rest together. -/
theorem dataInChunk_inTable {s t : State} (hin : inTable s) (h : dataInChunk s = .next t) : inTable t := by
  rw [dataInChunk_eq_next] at h
  obtain ⟨b, -, rfl⟩ := h
  obtain ⟨hrem, hoff⟩ := hin
  have htab := tlen_lt s.srcT
  have hn : chunkLen s.remain ≤ s.remain.toNat := Nat.min_le_left ..
  simp only [inTable, State.fill_srcT, BitVec.toNat_add, BitVec.toNat_sub, BitVec.toNat_ofNat, Nat.reducePow]
  omega

theorem Sound.dataInChunk {s t : State} (hs : Sound s) (hin : inTable s) (h : dataInChunk s = .next t) : Sound t := by
  have hin' := dataInChunk_inTable hin h
  rw [dataInChunk_eq_next] at h
  obtain ⟨b, -, rfl⟩ := h
  exact { (hs.fill 1 b).arm 1 (BitVec.ofNat 8 (chunkLen s.remain)) true with source := fun _ => hin' }

theorem Sound.startIn {t : BitVec 3} {len wLength : BitVec 16} {s s' : State} (hs : Sound s)
    (hlen : len.toNat ≤ tlen t) (h : startIn t len wLength s = .next s') : Sound s' := by
  rw [startIn_eq_next] at h
  obtain ⟨s1, hchunk, rfl⟩ := h
  have htab := tlen_lt t
  have hin : inTable { s with remain := if len ≤ wLength then len else wLength, srcT := t, srcOff := 0 } := by
    simp only [inTable, BitVec.le_def]
    split <;> simp <;> omega
  have h0 : Sound { s with remain := if len ≤ wLength then len else wLength, srcT := t, srcOff := 0 } :=
    { hs with source := fun _ => hin }
  have h1 : Sound s1 := h0.dataInChunk hin hchunk
  have hin1 : inTable s1 := dataInChunk_inTable hin hchunk
  have h2 : Sound { s1 with stage := stageDataIn } :=
    { h1 with stageLegal := by simp, source := fun _ => hin1 }
  exact h2.arm 0 64 true

theorem Sound.fillRespBuf {s : State} (h : Sound s) (o : Option (Byte × Byte)) : Sound (s.fillRespBuf o) := by
  cases o <;> exact { h with }

/-- CFG_OFF leads to the enables of Address (R262). -/
theorem epenBulkOff_epenFor {d : BitVec 3} (h : devDefault ≤ d) : epenBulkOff (epenFor d) = epenFor devAddress := by
  revert d
  decide

/-- CFG_ON leads to the enables of Configured (R264). -/
theorem epenBulkOn_epenFor : epenBulkOn (epenFor devAddress) = epenFor devConfigured := by decide

/-- The module is on from Default on (I6). -/
theorem Sound.moden_of_default {s : State} (h : Sound s) (hdef : devDefault ≤ s.devstate) : s.moden = true := by
  rw [h.modenFits]
  generalize s.devstate = d at hdef
  revert d
  decide

/-- A verdict that fits keeps a state sound from Default on: the enables and a pending address follow the device state
that its action belongs to (R209). -/
theorem Sound.acceptRequest {s : State} {v : Verdict} (h : Sound s) (hdef : devDefault ≤ s.devstate)
    (hpend : s.apend = false) (hv : VerdictFits s.devRec v) : Sound (acceptRequest v s) := by
  suffices hact : Sound (runAct (s.withRec v.devRec) v.act) by exact { hact.fillRespBuf v.rb with }
  have hon := h.moden_of_default hdef
  have hoff : epenBulkOff s.epen = epenFor devAddress := by rw [h.enables, epenBulkOff_epenFor hdef]
  have hpend' : v.devRec.apend = true → v.act = .none ∧ s.devstate ≠ devConfigured := fun ha =>
    (hv.pend ha).resolve_left (by simp [State.devRec, hpend])
  have hhalt := hv.halt h.haltHardwired
  rcases hv.act with ⟨hact, hdev⟩ | ⟨hact, hdev⟩ | ⟨hact, hdev⟩ <;> simp only [hact, runAct]
  · have hdev : v.devRec.devstate = s.devstate := hdev
    exact { h with
      devLegal := by simpa [hdev] using h.devLegal
      enables := by simpa [hdev] using h.enables
      modenFits := by simpa [hdev] using h.modenFits
      haltHardwired := hhalt
      pendingFits := fun ha => by
        have hnot := (hpend' ha).2
        have hle := h.devLegal
        simp only [State.withRec_devstate, hdev]
        generalize s.devstate = d at hdef hle hnot
        revert d
        decide }
  · exact { h with
      devLegal := by simp [cfgOff, hdev]
      enables := by simp [cfgOff, hdev, hoff]
      bds := h.bds.reinitBulk
      modenFits := by simp [cfgOff, hdev, hon]
      haltHardwired := by simp [cfgOff]
      pendingFits := fun _ => .inr hdev }
  · exact { h with
      devLegal := by simp [cfgOn, hdev]
      enables := by
        have hepen : epenBulkOn (epenBulkOff s.epen) = epenFor devConfigured := by rw [hoff, epenBulkOn_epenFor]
        simpa [cfgOn, hdev] using hepen
      bds := (h.bds.reinitBulk.arm 2 7 true).arm 4 1 true
      modenFits := by simp [cfgOn, hdev, hon]
      haltHardwired := by simp [cfgOn]
      pendingFits := fun ha => by simp [(hpend' ha).1] at hact }

/-- Default and Address enable the same endpoints. -/
theorem Sound.readdress {s : State} {d : BitVec 3} (h : Sound s)
    (hs : s.devstate = devDefault ∨ s.devstate = devAddress) (hd : d = devDefault ∨ d = devAddress) (a : BitVec 7) :
    Sound { s with addr := a, devstate := d, apend := false } := by
  have hon : s.moden = true := h.moden_of_default (by rcases hs with hs | hs <;> simp [hs])
  have hen : s.epen = 0b001 := by rcases hs with hs | hs <;> simp [h.enables, hs, epenFor]
  exact { h with
    devLegal := by rcases hd with rfl | rfl <;> simp
    enables := by rcases hd with rfl | rfl <;> simp [hen, epenFor]
    modenFits := by rcases hd with rfl | rfl <;> simp [hon]
    pendingFits := by simp }

/-- The end of SET_ADDRESS (R203). -/
theorem Sound.applyAddress {s : State} (h : Sound s) : Sound (applyAddress s) := by
  unfold Machine.applyAddress
  split
  · rename_i ha
    exact h.readdress (h.pendingFits ha) (by split <;> simp) s.paddr
  · exact h

/-! ## The handlers of EP0 leave EP0 OUT armed -/

theorem startIn_own {t : BitVec 3} {len wLength : BitVec 16} {s s' : State} (h : startIn t len wLength s = .next s') :
    (s'.bd 0).own = .hw := by
  rw [startIn_eq_next] at h
  obtain ⟨s1, -, rfl⟩ := h
  exact State.arm_own_same ..

theorem startOut_own (s : State) : ((startOut s).bd 0).own = .hw := by
  rw [show (startOut s).bd 0 = ((s.arm 0 64 true).arm 1 0 true).bd 0 from rfl, State.arm_bd_other _ _ _ (by decide)]
  exact State.arm_own_same ..

theorem unhandled_own (s : State) : ((unhandled s).bd 0).own = .hw := by
  simp [unhandled, State.bd, BdFile.get_arm_other]

/-- The end of a request, whatever its verdict (R191, R209). -/
theorem finishRequest_rearms {toHost : Bool} {wLength : BitVec 16} {v : Verdict} {s t : State} (hs : Sound s)
    (hdef : devDefault ≤ s.devstate) (hpend : s.apend = false) (hv : VerdictFits s.devRec v)
    (h : finishRequest toHost wLength v s = .next t) : Sound t ∧ (t.bd 0).own = .hw := by
  have hacc := hs.acceptRequest hdef hpend hv
  rcases finishRequest_eq_next h with ⟨-, rfl⟩ | ⟨-, -, rfl⟩ | ⟨-, -, hin⟩
  · exact ⟨Sound.unhandled { hs with }, unhandled_own _⟩
  · exact ⟨hacc.startOut, startOut_own _⟩
  · exact ⟨hacc.startIn hv.len hin, startIn_own hin⟩

theorem execTrnEp0Setup_rearms {s t : State} (hs : Sound s) (hdef : devDefault ≤ s.devstate)
    (h : execTrnEp0Setup s = .next t) : Sound t ∧ (t.bd 0).own = .hw := by
  rcases execTrnEp0Setup_eq_next h with ⟨-, hfin⟩ | ⟨-, rfl⟩
  · exact finishRequest_rearms hs.latchSetup.contextReset hdef rfl (VerdictFits.dispatch _ _) hfin
  · exact ⟨Sound.unhandled { hs.contextReset with }, unhandled_own _⟩

theorem execTrnEp0Out_rearms {s t : State} (hs : Sound s) (h : execTrnEp0Out s = .next t) :
    Sound t ∧ (t.bd 0).own = .hw := by
  unfold execTrnEp0Out at h
  rw [withStage_eq_next] at h
  obtain ⟨st, -, h⟩ := h
  cases st <;> cases h
  case setup => exact ⟨hs.arm 0 _ _, State.arm_own_same ..⟩
  case dataOut =>
    have hcount : Sound { s with rxtot := s.rxtot + (s.bd 0).count.setWidth 16 } := { hs with }
    exact ⟨hcount.arm 0 64 true, State.arm_own_same ..⟩
  case dataIn => exact ⟨(hs.setStage (.inl rfl)).arm 0 _ _, State.arm_own_same ..⟩

/-- TRN_EP0_IN leaves EP0 OUT as it is. -/
theorem execTrnEp0In_sound {s t : State} (hs : Sound s) (h : execTrnEp0In s = .next t) :
    Sound t ∧ t.bd 0 = s.bd 0 := by
  unfold execTrnEp0In at h
  rw [withStage_eq_next] at h
  obtain ⟨st, hst, h⟩ := h
  cases st with
  | setup =>
    cases h
    exact ⟨hs, rfl⟩
  | dataOut =>
    cases h
    refine ⟨hs.applyAddress.setStage (.inl rfl), ?_⟩
    unfold applyAddress
    split <;> rfl
  | dataIn =>
    have hstage : s.stage = stageDataIn := by
      rcases s.stage?_cases with ⟨h1, h2⟩ | ⟨h1, h2⟩ | ⟨h1, h2⟩ | ⟨h1, h2⟩ <;> simp_all
    simp only at h
    split at h
    · refine ⟨hs.dataInChunk (hs.source hstage) h, ?_⟩
      rw [dataInChunk_eq_next] at h
      obtain ⟨b, -, rfl⟩ := h
      exact BdFile.get_arm_other (i := 1) (j := 0) _ _ _ (by decide)
    · cases h
      exact ⟨hs.setStage (.inl rfl), rfl⟩

/-! ## A free latch, an owner followed -/

/-- With the latch free, (I7) says nothing and EP0 OUT must be armed. -/
theorem Sound.legal_of_latch_free {s : State} (h : Sound s) (hfree : s.uirBit uirTRN = false)
    (harmed : devDefault ≤ s.devstate → (s.bd 0).own = .hw) : Legal s :=
  (legal_iff s).2 ⟨h, fun htrn => by simp [hfree] at htrn, fun hdef => .inl (harmed ((s.atLeastDefault_iff).1 hdef))⟩

/-- Unless a SETUP or an EP0 OUT is latched, EP0 OUT is armed from Default on. -/
theorem Legal.ep0Out_armed {s : State} (h : Legal s) (hdef : devDefault ≤ s.devstate)
    (hlatch : s.uirBit uirTRN = true → s.ustat &&& 0x7F ≠ ustatSetup ∧ s.ustat &&& 0x7F ≠ ustatOut 0) :
    (s.bd 0).own = .hw := by
  rcases h.armed ((s.atLeastDefault_iff).2 hdef) with harmed | ⟨htrn, hsetup | hout⟩
  · exact harmed
  · exact absurd hsetup (hlatch htrn).1
  · exact absurd hout (hlatch htrn).2

/-- Clearing a flag other than `UIR.TRN`. -/
theorem Legal.clearUir {s : State} (h : Legal s) {k : Nat} (hk : uirTRN ≠ k) : Legal (s.clearUir k) :=
  { h with
    latch := fun htrn => h.latch (by rwa [uirBit_clearUir_other s hk] at htrn)
    armed := fun hdef => (h.armed hdef).imp_right fun ⟨htrn, hu⟩ => ⟨by rwa [uirBit_clearUir_other s hk], hu⟩ }

/-- Setting a flag other than `UIR.TRN`. -/
theorem Legal.setUir {s : State} (h : Legal s) {k : Nat} (hk : uirTRN ≠ k) : Legal (s.setUir k) :=
  { h with
    latch := fun htrn => h.latch (by rwa [uirBit_setUir_other s hk] at htrn)
    armed := fun hdef => (h.armed hdef).imp_right fun ⟨htrn, hu⟩ => ⟨by rwa [uirBit_setUir_other s hk], hu⟩ }

/-- Arming a bulk descriptor leaves the owners of EP0 alone. -/
theorem Legal.arm_bulk {s : State} (h : Legal s) {i : BdIndex} (hi : 2 ≤ i.val) (len : Byte) (t : Bool) :
    Legal (s.arm i len t) := by
  have h0 : (s.arm i len t).bd 0 = s.bd 0 := s.arm_bd_other len t (by rintro rfl; simp at hi)
  have h1 : (s.arm i len t).bd 1 = s.bd 1 := s.arm_bd_other len t (by rintro rfl; simp at hi)
  refine (legal_iff _).2 ⟨h.sound.arm i len t, ?_, ?_⟩
  · unfold latchFits
    rw [h0, h1]
    exact h.latch
  · unfold ep0Armed
    rw [h0]
    exact h.armed

/-! ## Branches -/

theorem execDetach_legal {s t : State} (h : Legal s) (ht : execDetach s = .next t) : Legal t := by
  cases ht
  have hs : Sound (detachHandler s) :=
    { h with
      stageLegal := by simp [detachHandler, reinitialise]
      devLegal := by simp [detachHandler]
      enables := by simp [detachHandler, reinitialise, epenFor]
      bds := s.bds.fits_reinitAll
      source := by simp [detachHandler, reinitialise]
      modenFits := by simp [detachHandler]
      pendingFits := by simp [detachHandler, reinitialise]
      haltHardwired := by simp [detachHandler, reinitialise]
      selfpwrZero := rfl }
  exact hs.legal_of_latch_free (by simp [detachHandler, State.uirBit]) (by simp [detachHandler])

/-- Below Default nothing is enabled, pending or armed, so the device state may move there. -/
theorem Legal.moveBelowDefault {s : State} (h : Legal s) {d : BitVec 3} {m : Bool} (hs : s.devstate < devDefault)
    (hd : d < devDefault) (hm : m = (d != devDetached)) : Legal { s with moden := m, devstate := d } := by
  have hen : ∀ x < devDefault, epenFor x = 0 := by decide
  have hle : ∀ x < devDefault, x ≤ devConfigured := by decide
  have hpend : s.apend ≠ true := fun ha => by rcases h.pendingFits ha with e | e <;> simp [e] at hs
  refine (legal_iff _).2 ⟨{ h.sound with
    devLegal := hle d hd
    enables := (h.sound.enables.trans (hen _ hs)).trans (hen d hd).symm
    modenFits := hm
    pendingFits := fun ha => absurd ha hpend }, h.latch, fun hdef => ?_⟩
  exact absurd ((State.atLeastDefault_iff _).1 hdef) (BitVec.not_le.2 hd)

theorem execAttach_legal {s t : State} (h : Legal s) (hdev : s.devstate = devDetached) (ht : execAttach s = .next t) :
    Legal t := by
  cases ht
  exact h.moveBelowDefault (by simp [hdev]) (by decide) rfl

theorem execPowered_legal {s t : State} (h : Legal s) (hdev : s.devstate = devAttached) (ht : execPowered s = .next t) :
    Legal t := by
  cases ht
  exact h.moveBelowDefault (by simp [hdev]) (by decide) (by rw [h.modenFits, hdev]; rfl)

/-- Bus reset leaves Default with EP0 OUT armed and the latch free (R391). -/
theorem busResetHandler_legal {s : State} (h : Legal s) (hdev : s.devstate ≠ devDetached) :
    Legal (busResetHandler s) := by
  have hs : Sound (busResetHandler s) :=
    { h with
      stageLegal := by simp [busResetHandler, reinitialise]
      devLegal := by simp [busResetHandler]
      enables := by simp [busResetHandler, epenFor]
      bds := s.bds.fits_reinitAll.arm 0 64 true
      source := by simp [busResetHandler, reinitialise]
      modenFits := by simpa [busResetHandler, reinitialise, h.modenFits] using hdev
      pendingFits := by simp [busResetHandler, reinitialise]
      haltHardwired := by simp [busResetHandler, reinitialise]
      selfpwrZero := rfl }
  refine hs.legal_of_latch_free ?_ fun _ => State.arm_own_same _ 0 64 true
  exact uirBit_clearUir_same { reinitialise s with devstate := devDefault } uirTRN

theorem execUrst_legal {s t : State} (h : Legal s) (ht : execUrst s = .next t) : Legal t := by
  rcases execUrst_eq_next ht with ⟨-, rfl⟩ | ⟨hdev, rfl⟩
  · exact h.clearUir (by decide)
  · exact (busResetHandler_legal h hdev).clearUir (by decide)

/-- The TRN branch frees the latch, and each handler leaves EP0 OUT armed from Default on. -/
theorem execTrn_legal {s t : State} (h : Legal s) (ht : execTrn s = .next t) : Legal t := by
  obtain ⟨s1, rfl, hs1⟩ := execTrn_eq_next ht
  suffices hpost : Sound s1 ∧ (devDefault ≤ s1.devstate → (s1.bd 0).own = .hw) from
    (hpost.1.clearUir uirTRN).legal_of_latch_free (uirBit_clearUir_same s1 uirTRN) hpost.2
  rcases hs1 with ⟨hlow, rfl⟩ | ⟨hdef, ⟨-, hsetup⟩ | ⟨-, hout⟩ | ⟨hu, hin⟩ | ⟨hnot40, hnot00, -, hbulk⟩⟩
  · exact ⟨h.sound, fun hdef => absurd hdef (BitVec.not_le.2 hlow)⟩
  · have hpost := execTrnEp0Setup_rearms h.sound hdef hsetup
    exact ⟨hpost.1, fun _ => hpost.2⟩
  · have hpost := execTrnEp0Out_rearms h.sound hout
    exact ⟨hpost.1, fun _ => hpost.2⟩
  · have hpost := execTrnEp0In_sound h.sound hin
    exact ⟨hpost.1, fun _ => hpost.2 ▸ h.ep0Out_armed hdef fun _ => by rw [hu]; decide⟩
  · have harmed := h.ep0Out_armed hdef fun _ => ⟨hnot40, hnot00⟩
    rcases hbulk with rfl | rfl
    · exact ⟨h.sound, fun _ => harmed⟩
    · exact ⟨h.sound.clearUir uirTRN, fun _ => harmed⟩

/-- Each branch of R281 from a state in which its test holds. -/
theorem branch_legal {row : BitVec 16 × BitVec 16 × Instr} (hrow : row ∈ branchRows) {s t : State} (h : Legal s)
    (htest : s.view &&& row.1 = row.2.1) (ht : exec row.2.2 s = .next t) : Legal t := by
  simp only [branchRows, List.mem_cons, List.not_mem_nil, or_false] at hrow
  rcases hrow with rfl | rfl | rfl | rfl | rfl | rfl | rfl | rfl | rfl | rfl
  · exact execDetach_legal h ht
  · exact execAttach_legal h ((test_attach_iff s).1 htest).1 ht
  · exact execPowered_legal h ((test_powered_iff s).1 htest).1 ht
  · cases ht
    have hawake : Legal { s with susp := false } := { h with }
    exact hawake.clearUir (by decide)
  · exact execUrst_legal h ht
  · cases ht
    have hasleep : Legal { s with susp := true } := { h with }
    exact hasleep.clearUir (by decide)
  · cases ht
    exact h.clearUir (by decide)
  · cases ht
    exact h.clearUir (by decide)
  · cases ht
    exact h.clearUir (by decide)
  · exact execTrn_legal h ht

theorem pumpStep_legal {s t : State} (h : Legal s) (ht : pumpStep s = .next t) : Legal t := by
  unfold pumpStep at ht
  rw [withDevState_eq_next] at ht
  exact runBranches_invariant (fun _ hrow _ _ => branch_legal hrow) h ht.2

/-! ## Commands -/

theorem Legal.answer {s : State} (h : Legal s) (r : BitVec 32) (q : List Byte) : Legal (s.answer r q) := { h with }

theorem execBulkWrite_legal {s t : State} {ep : BitVec 4} {data : List Byte} (h : Legal s)
    (ht : execBulkWrite ep data s = .next t) : Legal t := by
  rcases execBulkWrite_eq_next ht with ⟨r, q, rfl⟩ | ⟨e, m, r, q, he, rfl⟩
  · exact h.answer r q
  · have hfill : Legal (s.fill (bdOf e .inward) data) := { h with memory := (h.sound.fill _ data).memory }
    exact (hfill.arm_bulk (two_le_bdOf_of_bulkEp he _) m true).answer r q

theorem execBulkRead_legal {s t : State} {ep : BitVec 4} {len : Byte} (h : Legal s)
    (ht : execBulkRead ep len s = .next t) : Legal t := by
  rcases execBulkRead_eq_next ht with ⟨r, q, rfl⟩ | ⟨e, n, m, r, q, he, rfl⟩
  · exact h.answer r q
  · have hdrawn : Legal (s.setDraws n) := { h with }
    exact (hdrawn.arm_bulk (two_le_bdOf_of_bulkEp he _) m true).answer r q

theorem commandStep_legal {s t : State} {c : BitVec 32} {data : List Byte} (h : Legal s)
    (ht : commandStep c data s = .next t) : Legal t := by
  unfold commandStep at ht
  split at ht
  · rename_i i hdec
    rcases decodeCmd_eq_ok hdec with rfl | rfl | rfl
    · exact execBulkWrite_legal h ht
    · exact execBulkRead_legal h ht
    · rw [execStatus_eq_next ht]
      exact h.answer ..
  · cases ht
    exact h.answer ..

/-! ## Moves of the environment -/

theorem Legal.emit {s : State} (h : Legal s) (e : Event) : Legal (s.emit e) := { h with }

theorem sieStall_legal {s : State} (h : Legal s) : Legal (sieStall s) := (h.setUir (by decide)).emit .stall

/-- Received bytes that fit their buffer. -/
theorem Sound.receive {s : State} (h : Sound s) {i : BdIndex} {bytes : List Byte} (hlen : bytes.length ≤ maxPkt i) :
    Sound (s.receive i bytes) :=
  have hcount : (BitVec.ofNat 8 bytes.length).toNat ≤ maxPkt i := (Nat.mod_le ..).trans hlen
  { h with
    bds := h.bds.set ⟨hcount, (h.bds i).addr, (h.bds i).quiet⟩
    memory := Memory.wf_write _ _ h.memory }

theorem Sound.complete {s : State} (h : Sound s) (i : BdIndex) (u : Byte) : Sound (s.complete i u) :=
  { h with bds := h.bds.handBack i }

/-- Completing a transaction meets (I7) when the latch names the descriptor that is handed back, and a SETUP had EP0 IN
handed back before it. -/
theorem Sound.legal_complete {s : State} (h : Sound s) {i : BdIndex} {u : Byte}
    (harmed : devDefault ≤ s.devstate → (s.bd 0).own = .hw)
    (hout : u &&& 0x7F = ustatSetup ∨ u &&& 0x7F = ustatOut 0 ↔ i = 0)
    (hin : u &&& 0x7F = ustatSetup ∨ u &&& 0x7F = ustatIn 0 → i = 1 ∨ (s.bd 1).own = .sw) :
    Legal (s.complete i u) := by
  have hown (j : BdIndex) (hj : i = j ∨ (s.bd j).own = .sw) : ((s.complete i u).bd j).own = .sw := by
    rw [State.complete_bd]
    split
    · rfl
    · rename_i hne
      exact hj.resolve_left (Ne.symm hne)
  refine (legal_iff _).2 ⟨h.complete i u, fun _ => ⟨fun hu => hown 0 (.inl (hout.1 hu)), fun hu => hown 1 (hin hu)⟩, ?_⟩
  intro hdef
  by_cases hi : i = 0
  · exact .inr ⟨uirBit_setUir_same _ (by decide), hout.2 hi⟩
  · left
    rw [State.complete_bd, if_neg (Ne.symm hi)]
    exact harmed ((s.atLeastDefault_iff).1 hdef)

/-- A token that passes the gate finds the latch free, so EP0 OUT armed (R340, R341). -/
theorem Legal.ep0Out_armed_of_gate {s : State} {a : BitVec 7} {ep : BitVec 4} {e : Fin 3} (h : Legal s)
    (hgate : tokenGate s a ep = .ok e) (hdef : devDefault ≤ s.devstate) : (s.bd 0).own = .hw := by
  obtain ⟨-, -, -, -, hfree⟩ := tokenGate_eq_ok.1 hgate
  exact h.ep0Out_armed hdef fun htrn => by simp [hfree] at htrn

theorem sieSetup_legal {s : State} {a : BitVec 7} {bytes : List Byte} (h : Legal s) (hlen : bytes.length ≤ 64) :
    Legal (sieSetup a bytes s) := by
  rcases sieSetup_cases a bytes s with ⟨e, heq⟩ | ⟨e, -, hown, heq⟩ <;> rw [heq]
  · exact h.emit e
  · have hrec : Sound (s.receive 0 bytes) := h.sound.receive hlen
    have hback : Sound ((s.receive 0 bytes).setBds
        ((s.receive 0 bytes).bds.set 1 { (s.receive 0 bytes).bd 1 with own := .sw })) :=
      { hrec with bds := hrec.bds.handBack 1 }
    refine (hback.legal_complete (fun _ => ?_) (by decide) fun _ => .inr ?_).emit .ack
    · simpa [State.bd, State.receive, BdFile.get_set_other] using hown
    · simp [State.bd]

theorem sieOut_legal {s : State} {a : BitVec 7} {ep : BitVec 4} {d : Bool} {bytes : List Byte} (h : Legal s) :
    Legal (sieOut a ep d bytes s) := by
  rcases sieOut_cases a ep d bytes s with ⟨e, heq⟩ | heq | heq | ⟨e, hgate, hfit, heq⟩ <;> rw [heq]
  · exact h.emit e
  · exact sieStall_legal h
  · exact (h.setUir (by decide)).emit _
  · have hrec := h.sound.receive (hfit.trans (h.bdsFit _).1)
    have hout : ∀ e, ustatOut e &&& 0x7F = ustatSetup ∨ ustatOut e &&& 0x7F = ustatOut 0 ↔ bdOf e .outward = 0 := by
      decide
    have hin : ∀ e, ¬(ustatOut e &&& 0x7F = ustatSetup ∨ ustatOut e &&& 0x7F = ustatIn 0) := by decide
    refine (hrec.legal_complete (fun hdef => ?_) (hout e) fun hu => absurd hu (hin e)).emit .ack
    have harmed := h.ep0Out_armed_of_gate hgate hdef
    rw [State.receive_bd]
    split
    · rename_i h0
      exact h0 ▸ harmed
    · exact harmed

theorem sieIn_legal {s : State} {acked : Bool} {a : BitVec 7} {ep : BitVec 4} (h : Legal s) :
    Legal (sieIn acked a ep s) := by
  rcases sieIn_cases acked a ep s with ⟨e, heq⟩ | heq | ⟨e, hgate, heq⟩
  · rw [heq]
    exact h.emit e
  · rw [heq]
    exact sieStall_legal h
  · have hsent : Legal (sieSend (bdOf e .inward) s) := { h with }
    rcases heq with heq | heq <;> rw [heq]
    · exact hsent
    · have hout : ∀ e, ustatIn e &&& 0x7F = ustatSetup ∨ ustatIn e &&& 0x7F = ustatOut 0 ↔ bdOf e .inward = 0 := by
        decide
      have hin : ∀ e, ustatIn e &&& 0x7F = ustatSetup ∨ ustatIn e &&& 0x7F = ustatIn 0 → bdOf e .inward = 1 := by
        decide
      exact hsent.sound.legal_complete (h.ep0Out_armed_of_gate hgate) (hout e) fun hu => .inl (hin e hu)

theorem sieFlag_legal {s : State} {f : SieFlag} (h : Legal s) : Legal (sieFlag f s) := by
  have hflag : Legal (s.setUir (SieFlag.bit f)) := h.setUir (by cases f <;> decide)
  unfold sieFlag
  split
  · exact hflag.emit _
  · exact h.emit _

/-! ## The step -/

theorem lineStep_legal {l : Line} {s t : State} (h : Legal s) (ht : lineStep l s = .next t) : Legal t := by
  unfold lineStep at ht
  split at ht
  · rename_i hwf
    cases l with
    | pump => exact pumpStep_legal h ht
    | cmd c data => exact commandStep_legal h ht
    | setup a bytes =>
      cases ht
      exact sieSetup_legal h (by simpa [Line.wf] using hwf)
    | out a ep d bytes =>
      cases ht
      exact sieOut_legal h
    | inToken a ep =>
      cases ht
      exact sieIn_legal h
    | inLost a ep =>
      cases ht
      exact sieIn_legal h
    | flag f =>
      cases ht
      exact sieFlag_legal h
    | bus vbus se0 =>
      cases ht
      exact { h with }
  · cases ht

theorem step_legal {s t : State} (h : Legal s) (ht : step s = .next t) : Legal t := by
  unfold step takeStep at ht
  rw [h.busQuiet] at ht
  cases hag : s.agenda with
  | nil =>
    rw [hag] at ht
    exact pumpStep_legal h ht
  | cons l rest =>
    rw [hag] at ht
    have hrest : Legal { s with bdBus := none, agenda := rest } := { h with busQuiet := rfl }
    exact lineStep_legal hrest ht

/-- Settles O54: the agents' steps by `step_legal`, the branches of a pump step by `branch_legal`. -/
theorem everyStepKeepsLegal : Obligations.EveryStepKeepsLegal :=
  ⟨fun _ _ => step_legal, fun _ hrow _ _ => branch_legal hrow⟩

end Sys2Proof.Safety
end

section
/-! PROOFS. The power-on state (10_state.md section 9): its registers, its buffer RAM of free draws, and that it is
legal. -/

namespace Sys2Proof.Machine

/-- A read of bytes that were never written is one free draw for each (R84). -/
theorem Memory.read_nil (draws : Nat) (a : Byte) (n : Nat) :
    Memory.read [] draws a n = ((List.range' draws n).map Config.freeByte, draws + n) := by
  induction n generalizing draws a with
  | zero => rfl
  | succ n ih => simp [Memory.read, Memory.lookup, ih, List.range'_succ, Nat.add_assoc, Nat.add_comm 1 n]

/-- Settles O11: the registers by computation, the free draws by `Memory.read_nil`. -/
theorem resetValues : Obligations.ResetValues := by
  refine ⟨rfl, rfl, rfl, rfl, rfl, rfl, rfl, rfl, rfl, rfl, rfl, rfl, rfl, rfl, rfl, rfl, rfl, rfl, rfl, rfl, rfl, rfl,
    rfl, rfl, rfl, rfl, rfl, rfl, ?_, ?_⟩
  · intro a
    rfl
  · intro a n
    exact Memory.read_nil _ a n

end Sys2Proof.Machine

namespace Sys2Proof.Safety

open Sys2Proof.Machine

theorem reset_bd (i : BdIndex) : State.reset.bds.get i = Bd.powerOn (baseOf i) := by
  fin_cases i <;> rfl

theorem sound_reset : Sound State.reset where
  stageLegal := by decide
  devLegal := by decide
  enables := by decide
  bds := by
    intro i
    rw [reset_bd]
    exact ⟨Nat.zero_le _, rfl, fun _ => rfl⟩
  source := by
    intro h
    exact absurd h (by decide)
  modenFits := by decide
  pendingFits := by decide
  haltHardwired := by decide
  selfpwrZero := rfl
  memory := rfl
  busQuiet := rfl

/-- Settles O53: at power-on the latch is free and the device Detached. -/
theorem resetIsLegal : Obligations.ResetIsLegal :=
  sound_reset.legal_of_latch_free (by decide) (by decide)

end Sys2Proof.Safety
end

section
/-! PROOFS. The registers that few instructions write (10_state.md sections 3 and 5), as one projection of the state,
and what every instruction does to them, said once. -/

namespace Sys2Proof.Machine

/-! ## The guarded registers -/

/-- The registers with a short list of writers (R40 to R46, R57). -/
structure Guarded where
  uir : Byte
  ustat : Byte
  epen : BitVec 3
  addr : BitVec 7
  ephalt : BitVec 6
  moden : Bool
  vbus : Bool
  se0 : Bool
  selfpwr : Bool

def State.guarded (s : State) : Guarded where
  uir := s.uir
  ustat := s.ustat
  epen := s.epen
  addr := s.addr
  ephalt := s.ephalt
  moden := s.moden
  vbus := s.vbus
  se0 := s.se0
  selfpwr := s.selfpwr

/-- Running `i` at `s` applies a pending address: the end of the Status stage of SET_ADDRESS (R202, R203). -/
def appliesAddress (i : Instr) (s : State) : Prop :=
  (i = .trnEp0In ∨ (i = .trn ∧ s.ustat &&& 0x7F = 0x30)) ∧ s.stage = 1 ∧ s.apend = true

/-- Running `i` at `s` may run SET_CONFIGURATION, by itself or in the Setup handler (R262, R264). -/
def mayConfigure (i : Instr) (s : State) : Prop :=
  (∃ v x l, i = .setConfiguration v x l)
    ∨ ((i = .trnEp0Setup ∨ (i = .trn ∧ s.ustat &&& 0x7F = 0x40)) ∧ s.bds.ep0Out.count = 8
      ∧ (latchSetup s).setup.extractLsb' 0 16 = 0x0900#16)

/-- The ways in which running `i` at `s` leaves the guarded registers. -/
inductive GuardedStep (i : Instr) (s : State) : Guarded → Prop
  | same : GuardedStep i s s.guarded
  | attach (hi : i = .attach) : GuardedStep i s { s.guarded with moden := true }
  | detach (hi : i = .detach) :
      GuardedStep i s
        { s.guarded with uir := 0, epen := 0, addr := 0, ephalt := 0, moden := false, selfpwr := false }
  | busReset (hi : i = .urst) :
      GuardedStep i s { s.guarded with epen := 0b001, addr := 0, ephalt := 0, selfpwr := false }
  | setAddress (hi : appliesAddress i s) : GuardedStep i s { s.guarded with addr := s.paddr }
  | request (e : BitVec 3) (hlt : BitVec 6) (hepen : e ≠ s.epen → mayConfigure i s)
      (hhalt : s.ephalt &&& 0b000011 = 0 → hlt &&& 0b000011 = 0) :
      GuardedStep i s { s.guarded with epen := e, ephalt := hlt }
  | clear {g : Guarded} (h : GuardedStep i s g) (m : Byte) : GuardedStep i s { g with uir := g.uir &&& m }

/-! ## Requests -/

/-- Of the requests of R135, SET_CONFIGURATION alone has an endpoint action (R230). -/
theorem requestVerdict_act {i : Instr} {d : DevRec} (h : (requestVerdict i d).act ≠ .none) :
    ∃ v x l, i = .setConfiguration v x l := by
  cases i
  case setConfiguration v x l => exact ⟨v, x, l, rfl⟩
  case clearFeatureEp | setFeatureEp => exact absurd (verdictHalt_writes ..).1 h
  all_goals
    refine absurd ?_ h
    simp only [requestVerdict, verdictGetStatusDev, verdictGetStatusIf, verdictGetStatusEp, verdictClearFeatureDev,
      verdictSetFeatureDev, verdictSetAddress, verdictGetDescriptor, verdictGetConfiguration, verdictGetInterface,
      verdictSetInterface]
    repeat' split
    all_goals rfl

/-- A packet with the request code of its row (R135). -/
theorem selector_of_decodeSetup {p : BitVec 64} {v x l : BitVec 16}
    (h : decodeSetup p = .ok (.setConfiguration v x l)) : setupSelector p = 0x0900 := by
  unfold decodeSetup at h
  split_ifs at h
  split at h
  · rename_i row hrow
    rw [Except.ok.injEq] at h
    have hsel := List.find?_some hrow
    have hmem := List.mem_of_find?_eq_some hrow
    simp only [requestRows, List.mem_cons, List.not_mem_nil, or_false] at hmem
    rcases hmem with rfl | rfl | rfl | rfl | rfl | rfl | rfl | rfl | rfl | rfl | rfl | rfl | rfl <;> cases h
    exact (beq_iff_eq.1 hsel).symm
  · cases h

theorem selector_of_dispatch_act {p : BitVec 64} {d : DevRec} (h : (dispatchRequest p d).act ≠ .none) :
    setupSelector p = 0x0900 := by
  unfold dispatchRequest at h
  split at h
  · rename_i i hdec
    obtain ⟨v, x, l, rfl⟩ := requestVerdict_act h
    exact selector_of_decodeSetup hdec
  · exact absurd rfl h

/-- Accepting a request writes the enables and the halts alone, the enables only with an endpoint action (R209). -/
theorem acceptRequest_guarded {v : Verdict} {s : State} (hv : VerdictFits s.devRec v) :
    ∃ e hlt, (acceptRequest v s).guarded = { s.guarded with epen := e, ephalt := hlt }
      ∧ (e ≠ s.epen → v.act ≠ .none) ∧ (s.ephalt &&& 0b000011 = 0 → hlt &&& 0b000011 = 0) := by
  have hrb (u : State) : ({ u.fillRespBuf v.rb with handled := true } : State).guarded = u.guarded := by
    cases v.rb <;> rfl
  unfold acceptRequest
  rw [hrb]
  rcases hv.act with ⟨hact, -⟩ | ⟨hact, -⟩ | ⟨hact, -⟩ <;> rw [hact]
  · exact ⟨s.epen, v.devRec.ephalt, rfl, fun hne => absurd rfl hne, hv.halt⟩
  · exact ⟨_, _, rfl, fun _ => by decide, fun _ => BitVec.zero_and⟩
  · exact ⟨_, _, rfl, fun _ => by decide, fun _ => BitVec.zero_and⟩

theorem dataInChunk_guarded {s t : State} (h : dataInChunk s = .next t) : t.guarded = s.guarded := by
  rw [dataInChunk_eq_next] at h
  obtain ⟨b, -, rfl⟩ := h
  rfl

theorem startIn_guarded {tab : BitVec 3} {len wLength : BitVec 16} {s t : State}
    (h : startIn tab len wLength s = .next t) : t.guarded = s.guarded := by
  rw [startIn_eq_next] at h
  obtain ⟨s1, hchunk, rfl⟩ := h
  exact (dataInChunk_guarded hchunk).trans rfl

/-- A request leaves the guarded registers as accepting it does. -/
theorem finishRequest_guarded {toHost : Bool} {wLength : BitVec 16} {v : Verdict} {s t : State}
    (hv : VerdictFits s.devRec v) (h : finishRequest toHost wLength v s = .next t) :
    ∃ e hlt, t.guarded = { s.guarded with epen := e, ephalt := hlt }
      ∧ (e ≠ s.epen → v.act ≠ .none) ∧ (s.ephalt &&& 0b000011 = 0 → hlt &&& 0b000011 = 0) := by
  rcases finishRequest_eq_next h with ⟨-, rfl⟩ | ⟨-, -, rfl⟩ | ⟨-, -, hin⟩
  · exact ⟨s.epen, s.ephalt, rfl, fun hne => absurd rfl hne, id⟩
  · exact acceptRequest_guarded hv
  · rw [startIn_guarded hin]
    exact acceptRequest_guarded hv

theorem exec_request_guarded {i : Instr} {packet : BitVec 64} {s t : State} (henc : encode i = .setup packet)
    (h : exec i s = .next t) : GuardedStep i s t.guarded := by
  rw [exec_request henc] at h
  obtain ⟨e, hlt, heq, hepen, hhalt⟩ := finishRequest_guarded (VerdictFits.request i s.devRec) h
  rw [heq]
  exact .request e hlt (fun hne => .inl (requestVerdict_act (hepen hne))) hhalt

/-! ## Transactions -/

theorem execTrnEp0Setup_guarded {i : Instr} {s t : State}
    (hi : i = .trnEp0Setup ∨ (i = .trn ∧ s.ustat &&& 0x7F = 0x40))
    (h : execTrnEp0Setup s = .next t) : GuardedStep i s t.guarded := by
  rcases execTrnEp0Setup_eq_next h with ⟨hcount, hfin⟩ | ⟨-, rfl⟩
  · obtain ⟨e, hlt, heq, hepen, hhalt⟩ := finishRequest_guarded (VerdictFits.dispatch _ _) hfin
    rw [heq]
    exact .request e hlt (fun hne => .inr ⟨hi, hcount, selector_of_dispatch_act (hepen hne)⟩) hhalt
  · exact .same

theorem execTrnEp0Out_guarded {i : Instr} {s t : State} (h : execTrnEp0Out s = .next t) :
    GuardedStep i s t.guarded := by
  unfold execTrnEp0Out at h
  rw [withStage_eq_next] at h
  obtain ⟨st, -, h⟩ := h
  cases st <;> cases h <;> exact .same

theorem execTrnEp0In_guarded {i : Instr} {s t : State} (hi : i = .trnEp0In ∨ (i = .trn ∧ s.ustat &&& 0x7F = 0x30))
    (h : execTrnEp0In s = .next t) : GuardedStep i s t.guarded := by
  unfold execTrnEp0In at h
  rw [withStage_eq_next] at h
  obtain ⟨st, hst, h⟩ := h
  cases st with
  | setup =>
    cases h
    exact .same
  | dataIn =>
    dsimp only at h
    split at h
    · rw [dataInChunk_guarded h]
      exact .same
    · cases h
      exact .same
  | dataOut =>
    cases h
    have hstage : s.stage = 1 := by
      rcases s.stage?_cases with ⟨h1, h2⟩ | ⟨h1, h2⟩ | ⟨h1, h2⟩ | ⟨h1, h2⟩ <;> simp_all
    unfold applyAddress
    split
    · rename_i hpend
      exact .setAddress ⟨hi, hstage, hpend⟩
    · exact .same

theorem execTrn_guarded {s t : State} (h : execTrn s = .next t) : GuardedStep .trn s t.guarded := by
  obtain ⟨s1, rfl, hs1⟩ := execTrn_eq_next h
  suffices h1 : GuardedStep .trn s s1.guarded from .clear h1 _
  rcases hs1 with ⟨-, rfl⟩ | ⟨-, ⟨hu, hsetup⟩ | ⟨-, hout⟩ | ⟨hu, hin⟩ | ⟨-, -, -, rfl | rfl⟩⟩
  · exact .same
  · exact execTrnEp0Setup_guarded (.inr ⟨rfl, hu⟩) hsetup
  · exact execTrnEp0Out_guarded hout
  · exact execTrnEp0In_guarded (.inr ⟨rfl, hu⟩) hin
  · exact .same
  · exact .clear .same _

/-! ## Every instruction -/

/-- What each instruction does to the guarded registers. -/
theorem exec_guarded {i : Instr} {s t : State} (h : exec i s = .next t) : GuardedStep i s t.guarded := by
  cases i
  case getStatusDev | getStatusIf | getStatusEp | clearFeatureDev | clearFeatureEp | setFeatureDev | setFeatureEp
      | setAddress | getDescriptor | getConfiguration | setConfiguration | getInterface | setInterface =>
    exact exec_request_guarded rfl h
  case bulkWrite =>
    rcases execBulkWrite_eq_next h with ⟨r, q, rfl⟩ | ⟨e, m, r, q, -, rfl⟩ <;> exact .same
  case bulkRead =>
    rcases execBulkRead_eq_next h with ⟨r, q, rfl⟩ | ⟨e, n, m, r, q, -, rfl⟩ <;> exact .same
  case status =>
    rw [execStatus_eq_next h]
    exact .same
  case arm | drain | reclaim | powered =>
    cases h
    exact .same
  case actv | idle | sof | stall | uerr | trnEp1Out | trnEp2Out | trnEp1In | trnEp2In =>
    cases h
    exact .clear .same _
  case attach =>
    cases h
    exact .attach rfl
  case detach =>
    cases h
    exact .detach rfl
  case urst =>
    rcases execUrst_eq_next h with ⟨-, rfl⟩ | ⟨-, rfl⟩
    · exact .clear .same _
    · exact .clear (.clear (.busReset rfl) _) _
  case trn => exact execTrn_guarded h
  case trnEp0Setup => exact execTrnEp0Setup_guarded (.inl rfl) h
  case trnEp0Out => exact execTrnEp0Out_guarded h
  case trnEp0In => exact execTrnEp0In_guarded (.inl rfl) h

/-! ## The writers of each register (R40 to R46, R57) -/

namespace GuardedStep

variable {i : Instr} {s : State} {g : Guarded}

theorem uir_lowered (h : GuardedStep i s g) : g.uir &&& ~~~s.uir = 0 := by
  induction h with
  | clear _ m ih =>
    rw [BitVec.and_assoc, BitVec.and_comm m, ← BitVec.and_assoc, ih]
    exact BitVec.zero_and
  | _ => simp [State.guarded]

theorem inputs (h : GuardedStep i s g) : g.ustat = s.ustat ∧ g.vbus = s.vbus ∧ g.se0 = s.se0 := by
  induction h with
  | clear _ m ih => exact ih
  | _ => exact ⟨rfl, rfl, rfl⟩

theorem selfpwr_stays_zero (h : GuardedStep i s g) (hs : s.selfpwr = false) : g.selfpwr = false := by
  induction h with
  | clear _ m ih => exact ih
  | detach | busReset => rfl
  | _ => exact hs

theorem addr_writers (h : GuardedStep i s g) (hne : g.addr ≠ s.addr) :
    i = .urst ∨ i = .detach ∨ (appliesAddress i s ∧ g.addr = s.paddr) := by
  induction h with
  | clear _ m ih => exact ih hne
  | detach hi => exact .inr (.inl hi)
  | busReset hi => exact .inl hi
  | setAddress hi => exact .inr (.inr ⟨hi, rfl⟩)
  | same | attach | request => exact absurd rfl hne

theorem moden_writers (h : GuardedStep i s g) (hne : g.moden ≠ s.moden) : i = .attach ∨ i = .detach := by
  induction h with
  | clear _ m ih => exact ih hne
  | attach hi => exact .inl hi
  | detach hi => exact .inr hi
  | same | busReset | setAddress | request => exact absurd rfl hne

theorem epen_writers (h : GuardedStep i s g) (hne : g.epen ≠ s.epen) : i = .urst ∨ i = .detach ∨ mayConfigure i s := by
  induction h with
  | clear _ m ih => exact ih hne
  | detach hi => exact .inr (.inl hi)
  | busReset hi => exact .inl hi
  | request e hlt hepen hhalt => exact .inr (.inr (hepen hne))
  | same | attach | setAddress => exact absurd rfl hne

/-- The hardwired bits of `EPHALT` stay clear (R44). -/
theorem ephalt_low (h : GuardedStep i s g) (hs : s.ephalt &&& 0b000011 = 0) : g.ephalt &&& 0b000011 = 0 := by
  induction h with
  | clear _ m ih => exact ih
  | detach | busReset => exact BitVec.zero_and
  | request e hlt hepen hhalt => exact hhalt hs
  | same | attach | setAddress => exact hs

end GuardedStep

/-- Settles O39: each register's writers, read off what `exec_guarded` says an instruction does. -/
theorem registersKeepTheirWriters : Obligations.RegistersKeepTheirWriters := by
  intro i s t h
  have hg := exec_guarded h
  obtain ⟨hustat, hvbus, hse0⟩ := hg.inputs
  refine ⟨hg.uir_lowered, hustat, hvbus, hse0, hg.selfpwr_stays_zero, fun hne => ?_, hg.moden_writers, hg.epen_writers⟩
  rcases hg.addr_writers hne with hi | hi | ⟨⟨hi, hstage, hpend⟩, haddr⟩
  · exact .inl hi
  · exact .inr (.inl hi)
  · exact .inr (.inr ⟨hi, hstage, hpend, haddr⟩)

/-- A write of a halt bit is read back at its own index unless that is hardwired, and changes no other (R44). -/
theorem haltOf_writeHalt (h : BitVec 6) (i j : BdIndex) (b : Bool) :
    haltOf (writeHalt h i b) j = if j = i ∧ 2 ≤ i.val then b else haltOf h j := by
  by_cases hi : i.val < 2
  · rw [writeHalt, if_pos hi, if_neg (by omega)]
  · by_cases hj : j = i
    · subst hj
      cases b <;> simp [haltOf, writeHalt, hi, Nat.le_of_not_lt hi]
    · have hval : j.val ≠ i.val := fun hv => hj (Fin.ext hv)
      cases b <;> simp [haltOf, writeHalt, hi, hj, hval]

/-- Settles O45: no instruction sets a hardwired bit, reads of it are 0 and writes to it are ignored. -/
theorem ep0HaltIsHardwired : Obligations.Ep0HaltIsHardwired := by
  refine ⟨fun i s t h => (exec_guarded h).ephalt_low, fun h i hi => ?_, haltOf_writeHalt⟩
  simp [haltOf, Nat.not_le.2 hi]

end Sys2Proof.Machine
end

section
/-! PROOFS. Buffer RAM and the descriptor tables (20_memory.md sections 1 and 2): what a read after a write answers,
the layout of the buffers, the bytes of the tables, and that every step keeps the canonical form. -/

namespace Sys2Proof.Machine

/-! ## Buffer RAM (R80, R82, R83) -/

/-- What `BufWrite` stored is what `BufRead` answers, without a draw (R83). -/
theorem Memory.read_write (m : Memory) (draws : Nat) (a : Byte) (bytes : List Byte)
    (hfit : a.toNat + bytes.length ≤ 256) : (m.write a bytes).read draws a bytes.length = (bytes, draws) :=
  Memory.read_of_lookup _ _ _ _ hfit fun k hk => Memory.lookup_write_inside m a bytes k hfit hk

/-- No two buffers overlap (R82). -/
theorem buffers_disjoint {i j : BdIndex} (h : i ≠ j) :
    (baseOf i).toNat + maxPkt i ≤ (baseOf j).toNat ∨ (baseOf j).toNat + maxPkt j ≤ (baseOf i).toNat := by
  revert i j
  decide

/-- Settles O43: a read after a write by `Memory.read_write`, the other bytes by `Memory.lookup_write_outside`, the
layout by `baseOf_fits` and `buffers_disjoint`. -/
theorem bufferRamReadsBackWrites : Obligations.BufferRamReadsBackWrites :=
  ⟨fun s a bytes hfit =>
    ⟨Memory.read_write s.mem s.draws a bytes hfit, fun c hc => Memory.lookup_write_outside s.mem a bytes c hfit hc⟩,
    baseOf_fits, fun _ _ => buffers_disjoint⟩

/-! ## The descriptor tables (R86 to R91) -/

/-- The tables without bytes are the two reserved ones (R86). -/
theorem State.table_eq_none_iff (s : State) (t : BitVec 3) : s.table t = none ↔ t = 6 ∨ t = 7 := by
  constructor
  · intro hnone
    have hreserved : ∀ t : BitVec 3, ¬ t.toNat < 6 → t = 6 ∨ t = 7 := by decide
    refine hreserved t fun hlt => ?_
    obtain ⟨b, hb⟩ := s.table_isSome hlt
    simp [hb] at hnone
  · rintro (rfl | rfl) <;> rfl

/-- Every table but `RESPBUF` declares its own size (R91). -/
theorem dlen_eq_length_table {s : State} {t : BitVec 3} {b : List Byte} (h : s.table t = some b) (ht : t ≠ 0) :
    (dlen t).toNat = b.length := by
  have hrange : ∀ t : BitVec 3, t ≠ 0 → ¬(t = 6 ∨ t = 7) → 1 ≤ t.toNat ∧ t.toNat ≤ 5 := by decide
  obtain ⟨hlo, hhi⟩ := hrange t ht fun hres => by simp [(s.table_eq_none_iff t).2 hres] at h
  rw [dlen_toNat hlo hhi, State.length_table h]

@[simp] theorem length_strDesc (units : Fin 127) (text : Nat → Byte) :
    (strDesc units text).length = 2 + 2 * units.val := by
  simp [strDesc]
  omega

/-- A string descriptor has an even size of at most 254 bytes, which it declares in its byte 0 (R90). -/
theorem strDesc_declares_length (units : Fin 127) (text : Nat → Byte) :
    2 ≤ (strDesc units text).length ∧ (strDesc units text).length ≤ 254 ∧ (strDesc units text).length % 2 = 0
      ∧ (strDesc units text).getD 0 0 = BitVec.ofNat 8 (strDesc units text).length
      ∧ (strDesc units text).getD 1 0 = 0x03 := by
  have hunits := units.isLt
  rw [length_strDesc]
  exact ⟨by omega, by omega, by omega, rfl, rfl⟩

/-- Settles O44: the fixed bytes of the two structured tables by computation, since they stand between the open ones;
the strings by `strDesc_declares_length`, the sizes by `State.length_table` and `dlen_eq_length_table`. -/
theorem descriptorTablesFit : Obligations.DescriptorTablesFit := by
  refine ⟨⟨rfl, rfl, rfl, rfl, rfl⟩, ⟨rfl, rfl, rfl, rfl, rfl, rfl, rfl⟩, ?_, ?_, State.table_eq_none_iff⟩
  · rintro d (rfl | rfl)
    · exact strDesc_declares_length _ _
    · exact strDesc_declares_length _ _
  · intro s t b hb
    exact ⟨State.length_table hb, dlen_eq_length_table hb⟩

/-! ## What an operation stores -/

/-- The second memory is the first after one `BufWrite` at the base of a buffer; it may store no byte at all. -/
def Memory.Stored (m m' : Memory) : Prop := ∃ i bytes, m' = m.write (baseOf i) bytes

theorem Memory.Stored.same (m : Memory) : m.Stored m := ⟨0, [], rfl⟩

theorem Memory.Stored.wf {m m' : Memory} (h : m.Stored m') (hm : m.wf = true) : m'.wf = true := by
  obtain ⟨i, bytes, rfl⟩ := h
  exact Memory.wf_write _ _ hm

theorem State.fill_stored (s : State) (i : BdIndex) (bytes : List Byte) : s.mem.Stored (s.fill i bytes).mem :=
  ⟨i, _, rfl⟩

theorem State.receive_stored (s : State) (i : BdIndex) (bytes : List Byte) : s.mem.Stored (s.receive i bytes).mem :=
  ⟨i, bytes, rfl⟩

/-! ## The control engine -/

@[simp] theorem acceptRequest_mem (v : Verdict) (s : State) : (acceptRequest v s).mem = s.mem := by
  have hact (u : State) (a : Act) : (runAct u a).mem = u.mem := by cases a <;> rfl
  simp [acceptRequest, hact]

@[simp] theorem applyAddress_mem (s : State) : (applyAddress s).mem = s.mem := by
  unfold applyAddress
  split <;> rfl

theorem dataInChunk_stored {s t : State} (h : dataInChunk s = .next t) : s.mem.Stored t.mem := by
  rw [dataInChunk_eq_next] at h
  obtain ⟨b, -, rfl⟩ := h
  exact s.fill_stored 1 b

theorem startIn_stored {tab : BitVec 3} {len wLength : BitVec 16} {s t : State}
    (h : startIn tab len wLength s = .next t) : s.mem.Stored t.mem := by
  rw [startIn_eq_next] at h
  obtain ⟨s1, hchunk, rfl⟩ := h
  have hstored := dataInChunk_stored hchunk
  exact hstored

/-- Of the ends of a request, only a data stage to the host stores anything: its first chunk. -/
theorem finishRequest_stored {toHost : Bool} {wLength : BitVec 16} {v : Verdict} {s t : State}
    (h : finishRequest toHost wLength v s = .next t) : s.mem.Stored t.mem := by
  rcases finishRequest_eq_next h with ⟨-, rfl⟩ | ⟨-, -, rfl⟩ | ⟨-, -, hin⟩
  · exact .same _
  · rw [show (startOut (acceptRequest v s)).mem = (acceptRequest v s).mem from rfl, acceptRequest_mem]
    exact .same _
  · exact acceptRequest_mem v s ▸ startIn_stored hin

theorem execTrnEp0Setup_stored {s t : State} (h : execTrnEp0Setup s = .next t) : s.mem.Stored t.mem := by
  rcases execTrnEp0Setup_eq_next h with ⟨-, hfin⟩ | ⟨-, rfl⟩
  · have hstored := finishRequest_stored hfin
    exact hstored
  · exact .same _

theorem execTrnEp0Out_mem {s t : State} (h : execTrnEp0Out s = .next t) : t.mem = s.mem := by
  unfold execTrnEp0Out at h
  rw [withStage_eq_next] at h
  obtain ⟨st, -, h⟩ := h
  cases st <;> cases h <;> rfl

theorem execTrnEp0In_stored {s t : State} (h : execTrnEp0In s = .next t) : s.mem.Stored t.mem := by
  unfold execTrnEp0In at h
  rw [withStage_eq_next] at h
  obtain ⟨st, -, h⟩ := h
  cases st with
  | setup =>
    cases h
    exact .same _
  | dataIn =>
    dsimp only at h
    split at h
    · exact dataInChunk_stored h
    · cases h
      exact .same _
  | dataOut =>
    cases h
    exact (applyAddress_mem s).symm ▸ .same _

theorem execTrn_stored {s t : State} (h : execTrn s = .next t) : s.mem.Stored t.mem := by
  obtain ⟨s1, rfl, hs1⟩ := execTrn_eq_next h
  rw [State.clearUir_mem]
  rcases hs1 with ⟨-, rfl⟩ | ⟨-, ⟨-, hsetup⟩ | ⟨-, hout⟩ | ⟨-, hin⟩ | ⟨-, -, -, rfl | rfl⟩⟩
  · exact .same _
  · exact execTrnEp0Setup_stored hsetup
  · exact execTrnEp0Out_mem hout ▸ .same _
  · exact execTrnEp0In_stored hin
  · exact .same _
  · exact .same _

/-! ## Every instruction -/

/-- Every instruction stores into at most one buffer. -/
theorem exec_stored {i : Instr} {s t : State} (h : exec i s = .next t) : s.mem.Stored t.mem := by
  cases i
  case getStatusDev | getStatusIf | getStatusEp | clearFeatureDev | clearFeatureEp | setFeatureDev | setFeatureEp
      | setAddress | getDescriptor | getConfiguration | setConfiguration | getInterface | setInterface =>
    exact finishRequest_stored h
  case bulkWrite ep data =>
    rcases execBulkWrite_eq_next h with ⟨r, q, rfl⟩ | ⟨e, m, r, q, -, rfl⟩
    · exact .same _
    · exact s.fill_stored (bdOf e .inward) data
  case bulkRead =>
    rcases execBulkRead_eq_next h with ⟨r, q, rfl⟩ | ⟨e, n, m, r, q, -, rfl⟩ <;> exact .same _
  case status =>
    rw [execStatus_eq_next h]
    exact .same _
  case arm | drain | reclaim | detach | attach | powered | actv | idle | sof | stall | uerr
      | trnEp1Out | trnEp2Out | trnEp1In | trnEp2In =>
    cases h
    exact .same _
  case urst =>
    rcases execUrst_eq_next h with ⟨-, rfl⟩ | ⟨-, rfl⟩ <;> exact .same _
  case trn => exact execTrn_stored h
  case trnEp0Setup => exact execTrnEp0Setup_stored h
  case trnEp0Out => exact execTrnEp0Out_mem h ▸ .same _
  case trnEp0In => exact execTrnEp0In_stored h

/-! ## Every move of the environment -/

theorem sieSetup_stored (a : BitVec 7) (bytes : List Byte) (s : State) : s.mem.Stored (sieSetup a bytes s).mem := by
  rcases sieSetup_cases a bytes s with ⟨e, heq⟩ | ⟨e, -, -, heq⟩ <;> rw [heq]
  · exact .same _
  · exact s.receive_stored 0 bytes

theorem sieOut_stored (a : BitVec 7) (ep : BitVec 4) (d : Bool) (bytes : List Byte) (s : State) :
    s.mem.Stored (sieOut a ep d bytes s).mem := by
  rcases sieOut_cases a ep d bytes s with ⟨e, heq⟩ | heq | heq | ⟨e, -, -, heq⟩ <;> rw [heq]
  · exact .same _
  · exact .same _
  · exact .same _
  · exact s.receive_stored (bdOf e .outward) bytes

theorem sieIn_mem (acked : Bool) (a : BitVec 7) (ep : BitVec 4) (s : State) : (sieIn acked a ep s).mem = s.mem := by
  rcases sieIn_cases acked a ep s with ⟨e, heq⟩ | heq | ⟨e, -, heq | heq⟩ <;> rw [heq] <;> rfl

theorem sieFlag_mem (f : SieFlag) (s : State) : (sieFlag f s).mem = s.mem := by
  unfold sieFlag
  split <;> rfl

/-! ## Every step keeps the canonical form (R80) -/

theorem pumpStep_mem_wf {s t : State} (hs : s.mem.wf = true) (h : pumpStep s = .next t) : t.mem.wf = true := by
  unfold pumpStep at h
  rw [withDevState_eq_next] at h
  exact runBranches_invariant (P := fun u => u.mem.wf = true) (fun _ _ _ _ hu _ hv => (exec_stored hv).wf hu) hs h.2

theorem commandStep_stored {c : BitVec 32} {data : List Byte} {s t : State} (h : commandStep c data s = .next t) :
    s.mem.Stored t.mem := by
  unfold commandStep at h
  split at h
  · exact exec_stored h
  · cases h
    exact .same _

theorem busStep_stored {w : BitVec 16} {s t : State} (h : busStep w s = .next t) : s.mem.Stored t.mem := by
  unfold busStep at h
  split at h
  · exact exec_stored h
  · cases h

theorem lineStep_mem_wf {l : Line} {s t : State} (hs : s.mem.wf = true) (h : lineStep l s = .next t) :
    t.mem.wf = true := by
  unfold lineStep at h
  split at h
  · cases l with
    | pump => exact pumpStep_mem_wf hs h
    | cmd c data => exact (commandStep_stored h).wf hs
    | setup a bytes =>
      cases h
      exact (sieSetup_stored a bytes s).wf hs
    | out a ep d bytes =>
      cases h
      exact (sieOut_stored a ep d bytes s).wf hs
    | inToken a ep =>
      cases h
      rwa [sieIn_mem]
    | inLost a ep =>
      cases h
      rwa [sieIn_mem]
    | flag f =>
      cases h
      rwa [sieFlag_mem]
    | bus vbus se0 =>
      cases h
      exact hs
  · cases h

/-- Settles O56: each agent's step by what it can store. -/
theorem bufferRamStaysCanonical : Obligations.BufferRamStaysCanonical := by
  intro s t hs h
  unfold step takeStep at h
  split at h
  · exact (busStep_stored h).wf hs
  · split at h
    · exact pumpStep_mem_wf hs h
    · rename_i rest _
      have hrest : ({ s with agenda := rest } : State).mem.wf = true := hs
      exact lineStep_mem_wf hrest h

end Sys2Proof.Machine
end

section
/-! PROOFS. The encodings (30_encoding.md): each port's decoder and the encoder undo each other, field by field, and
the image of a descriptor. -/

namespace Sys2Proof

/-- A field that a mask keeps whole has, in a word that matches, the value it has in the match (R136). -/
theorem extractLsb'_of_masked {n : Nat} {w m k : BitVec n} (h : w &&& m = k) (lo len : Nat)
    (hm : m.extractLsb' lo len = BitVec.allOnes len) : w.extractLsb' lo len = k.extractLsb' lo len := by
  rw [← h, BitVec.extractLsb'_and, hm, BitVec.and_allOnes]

/-- A field of one bit. -/
theorem extractLsb'_one_eq_ofBool {n : Nat} (w : BitVec n) (k : Nat) :
    w.extractLsb' k 1 = BitVec.ofBool (w.getLsbD k) := by
  ext j hj
  obtain rfl : j = 0 := by omega
  simp

/-- A word is the concatenation of its five adjacent fields. -/
theorem append_fields {n₄ n₃ n₂ n₁ n₀ : Nat} (w : BitVec (n₄ + n₃ + n₂ + n₁ + n₀)) :
    w.extractLsb' (n₀ + n₁ + n₂ + n₃) n₄ ++ w.extractLsb' (n₀ + n₁ + n₂) n₃ ++ w.extractLsb' (n₀ + n₁) n₂
      ++ w.extractLsb' n₀ n₁ ++ w.extractLsb' 0 n₀ = w := by
  rw [BitVec.extractLsb'_append_extractLsb'_eq_extractLsb' rfl,
    BitVec.extractLsb'_append_extractLsb'_eq_extractLsb' rfl,
    BitVec.extractLsb'_append_extractLsb'_eq_extractLsb' rfl, BitVec.extractLsb'_append_extractLsb']

/-! ## SETUP (R130, R135) -/

/-- No two rows of R135 have the same request type and request code, so a row is found by them. -/
theorem find?_requestRows : ∀ row ∈ requestRows, requestRows.find? (fun r => r.1 == row.1) = some row := by
  simp [requestRows]

/-- Every row of R135 is a standard request (R131). -/
theorem requestRows_standard : ∀ row ∈ requestRows, row.1.extractLsb' 5 2 = 0 := by decide

section Requests

variable {selector : BitVec 16} {mk : BitVec 16 → BitVec 16 → BitVec 16 → Instr}

theorem decodeSetup_setupPacket (h : (selector, mk) ∈ requestRows) (v x l : BitVec 16) :
    decodeSetup (setupPacket selector v x l) = .ok (mk v x l) := by
  have htype : setupType (setupPacket selector v x l) = 0 := by
    rw [setupType_setupPacket]
    exact requestRows_standard _ h
  have hrow := find?_requestRows _ h
  simp [decodeSetup, htype, hrow]

theorem encode_request (h : (selector, mk) ∈ requestRows) (v x l : BitVec 16) :
    encode (mk v x l) = .setup (setupPacket selector v x l) := by
  have hrows : ∀ row ∈ requestRows, encode (row.2 v x l) = .setup (setupPacket row.1 v x l) := by
    simp [requestRows, encode]
  exact hrows _ h

theorem encode_of_decodeSetup {packet : BitVec 64} {i : Instr} (h : decodeSetup packet = .ok i) :
    encode i = .setup packet := by
  unfold decodeSetup at h
  split_ifs at h
  split at h
  · rename_i row hrow
    cases h
    have hsel : row.1 = setupSelector packet := by simpa using List.find?_some hrow
    rw [encode_request (List.mem_of_find?_eq_some hrow), hsel, setupPacket_fields]
  · cases h

end Requests

/-! ## CMD (R114) -/

@[simp] theorem cmdEp_cmdWord (len : Byte) (ep : BitVec 4) (opc : Byte) : cmdEp (cmdWord len ep opc) = ep := by
  unfold cmdEp cmdWord
  rw [BitVec.extractLsb'_append_eq_of_le (by decide)]
  exact BitVec.extractLsb'_append_eq_right

@[simp] theorem cmdLen_cmdWord (len : Byte) (ep : BitVec 4) (opc : Byte) : cmdLen (cmdWord len ep opc) = len := by
  unfold cmdLen cmdWord
  rw [BitVec.extractLsb'_append_eq_of_le (by decide), BitVec.extractLsb'_append_eq_of_le (by decide),
    BitVec.extractLsb'_append_eq_of_le (by decide)]
  exact BitVec.extractLsb'_append_eq_right

/-- What the mask of the two bulk rows leaves of a command word is its opcode. -/
theorem cmdWord_masked_bulk (len : Byte) (ep : BitVec 4) (opc : Byte) :
    cmdWord len ep opc &&& 0xFF00F0FF = 0#24 ++ opc :=
  calc cmdWord len ep opc &&& 0xFF00F0FF
    _ = opc.setWidth 32 := by
      simpa using congrArg (BitVec.setWidth 32) (Laws.RowMatch.cmdWord_masked len ep opc)
    _ = 0#24 ++ opc := BitVec.setWidth_eq_append (by decide)

/-- A word that the mask of the bulk rows reduces to an opcode is the command word of its own fields (R114). -/
theorem cmdWord_of_masked_bulk {c : BitVec 32} {opc : Byte} (h : c &&& 0xFF00F0FF = 0#24 ++ opc) :
    cmdWord (cmdLen c) (cmdEp c) opc = c := by
  have hopc : c.extractLsb' 0 8 = opc := by
    rw [extractLsb'_of_masked h 0 8 (by decide), BitVec.extractLsb'_append_eq_right]
  have hlow : c.extractLsb' 12 4 = 0#4 := by
    rw [extractLsb'_of_masked h 12 4 (by decide), BitVec.extractLsb'_append_eq_of_le (by decide)]
    rfl
  have hhigh : c.extractLsb' 24 8 = 0#8 := by
    rw [extractLsb'_of_masked h 24 8 (by decide), BitVec.extractLsb'_append_eq_of_le (by decide)]
    rfl
  unfold cmdWord cmdLen cmdEp
  rw [← hopc, ← hlow, ← hhigh]
  exact append_fields (n₄ := 8) (n₃ := 8) (n₂ := 4) (n₁ := 4) (n₀ := 8) c

theorem decodeCmd_bulkWrite (ep : BitVec 4) (data : List Byte) (h : data.length ≤ 255) :
    decodeCmd (cmdWord (BitVec.ofNat 8 data.length) ep 0x01) data = .ok (.bulkWrite ep data) := by
  have hlen : data.length % 256 = data.length := Nat.mod_eq_of_lt (by omega)
  have hrow : cmdWord (BitVec.ofNat 8 data.length) ep 0x01 &&& 0xFF00F0FF = 0x00000001 := cmdWord_masked_bulk ..
  rw [decodeCmd, if_pos hrow]
  simp [hlen]

theorem decodeCmd_bulkRead (ep : BitVec 4) (len : Byte) :
    decodeCmd (cmdWord len ep 0x02) [] = .ok (.bulkRead ep len) := by
  have hrow : cmdWord len ep 0x02 &&& 0xFF00F0FF = 0x00000002 := cmdWord_masked_bulk ..
  rw [decodeCmd, hrow]
  simp

theorem encode_of_decodeCmd {c : BitVec 32} {data : List Byte} {i : Instr} (h : decodeCmd c data = .ok i) :
    encode i = .cmd c data := by
  unfold decodeCmd at h
  split_ifs at h with hwrite hlen hread hread_nil hstatus hstatus_nil <;> cases h
  · rw [encode, hlen, BitVec.ofNat_toNat, BitVec.setWidth_eq, cmdWord_of_masked_bulk hwrite]
  · rw [encode, cmdWord_of_masked_bulk hread, List.length_eq_zero_iff.1 hread_nil]
  · rw [hstatus, List.length_eq_zero_iff.1 hstatus_nil]
    rfl

/-! ## BDOP (R116, R136) -/

@[simp] theorem bdopLen_bdopWord (len : Byte) (t : Bool) (bd : BdIndex) (op : BitVec 2) :
    bdopLen (bdopWord len t bd op) = len := by
  unfold bdopLen bdopWord
  rw [BitVec.extractLsb'_append_eq_of_le (by decide), BitVec.extractLsb'_append_eq_of_le (by decide),
    BitVec.extractLsb'_append_eq_of_le (by decide)]
  exact BitVec.extractLsb'_append_eq_left

@[simp] theorem bdopWord_toggle (len : Byte) (t : Bool) (bd : BdIndex) (op : BitVec 2) :
    (bdopWord len t bd op).getLsbD 5 = t := by
  simp only [bdopWord, BitVec.getLsbD_append]
  simp

theorem bdopWord_op (len : Byte) (t : Bool) (bd : BdIndex) (op : BitVec 2) :
    (bdopWord len t bd op).extractLsb' 0 2 = op := BitVec.extractLsb'_append_eq_right

theorem bdopIndex_eq_some {w : BitVec 16} {bd : BdIndex} :
    bdopIndex w = some bd ↔ w.extractLsb' 2 3 = BitVec.ofNat 3 bd.val := by
  have hval : bd.val % 8 = bd.val := Nat.mod_eq_of_lt (by omega)
  rw [bdopIndex, ← BitVec.toNat_inj, BitVec.toNat_ofNat, hval]
  split
  · simp [Fin.ext_iff]
  · simp only [reduceCtorEq, false_iff]
    omega

@[simp] theorem bdopIndex_bdopWord (len : Byte) (t : Bool) (bd : BdIndex) (op : BitVec 2) :
    bdopIndex (bdopWord len t bd op) = some bd := by
  rw [bdopIndex_eq_some, bdopWord, BitVec.extractLsb'_append_eq_of_le (by decide)]
  exact BitVec.extractLsb'_append_eq_right

/-- A word with these fields, its reserved bits 0, is the bus word of them (R116). -/
theorem bdopWord_of_fields {w : BitVec 16} {t : Bool} {bd : BdIndex} {op : BitVec 2} (hbd : bdopIndex w = some bd)
    (hop : w.extractLsb' 0 2 = op) (ht : w.extractLsb' 5 1 = BitVec.ofBool t) (hzero : w.extractLsb' 6 2 = 0#2) :
    bdopWord (bdopLen w) t bd op = w := by
  rw [bdopWord, bdopLen, ← hop, ← ht, ← hzero, ← bdopIndex_eq_some.1 hbd]
  exact append_fields (n₄ := 8) (n₃ := 2) (n₂ := 1) (n₁ := 3) (n₀ := 2) w

theorem decodeBdop_arm (bd : BdIndex) (len : Byte) (t : Bool) :
    decodeBdop (bdopWord len t bd 1) = .ok (.arm bd len t) := by
  have hmask : bdopWord len t bd 1 &&& 0x00C3 = 0x0001 := by
    simpa using congrArg (BitVec.setWidth 16) (Laws.RowMatch.bdopWord_masked bd len t).1
  simp only [decodeBdop, bdopIndex_bdopWord, hmask, if_true, bdopLen_bdopWord, bdopWord_toggle]

theorem decodeBdop_drain (bd : BdIndex) (max : Byte) :
    decodeBdop (bdopWord max false bd 2) = .ok (.drain bd max) := by
  have hmask : bdopWord max false bd 2 &&& 0x00E3 = 0x0002 := by
    simpa using congrArg (BitVec.setWidth 16) (Laws.RowMatch.bdopWord_masked bd max false).2
  have harm : ¬ bdopWord max false bd 2 &&& 0x00C3 = 0x0001 := fun h => by
    have hop := extractLsb'_of_masked h 0 2 (by decide)
    rw [bdopWord_op] at hop
    exact absurd hop (by decide)
  simp only [decodeBdop, bdopIndex_bdopWord, hmask, harm, if_true, if_false, bdopLen_bdopWord]

theorem decodeBdop_reclaim (bd : BdIndex) : decodeBdop (bdopWord 0 false bd 3) = .ok (.reclaim bd) := by
  revert bd
  decide

theorem encode_of_decodeBdop {w : BitVec 16} {i : Instr} (h : decodeBdop w = .ok i) : encode i = .bdop w := by
  unfold decodeBdop at h
  split at h
  · cases h
  · rename_i bd hbd
    split_ifs at h with harm hdrain hreclaim <;> cases h
    · exact congrArg PortWord.bdop (bdopWord_of_fields hbd (extractLsb'_of_masked harm 0 2 (by decide))
        (extractLsb'_one_eq_ofBool w 5) (extractLsb'_of_masked harm 6 2 (by decide)))
    · exact congrArg PortWord.bdop (bdopWord_of_fields hbd (extractLsb'_of_masked hdrain 0 2 (by decide))
        (extractLsb'_of_masked hdrain 5 1 (by decide)) (extractLsb'_of_masked hdrain 6 2 (by decide)))
    · have hlen : bdopLen w = 0 := extractLsb'_of_masked hreclaim 8 8 (by decide)
      rw [encode, ← hlen]
      exact congrArg PortWord.bdop (bdopWord_of_fields hbd (extractLsb'_of_masked hreclaim 0 2 (by decide))
        (extractLsb'_of_masked hreclaim 5 1 (by decide)) (extractLsb'_of_masked hreclaim 6 2 (by decide)))

/-! ## USTAT (R112, R291) -/

theorem encode_of_decodeUstat {u : Byte} {i : Instr} (h : decodeUstat u = .ok i) : encode i = .ustat (u &&& 0x7F) := by
  have hrows : ∀ row ∈ ustatRows, encode row.2 = .ustat row.1 := by decide
  exact hrows _ (Machine.decodeUstat_eq_ok h)

/-! ## The encodings of all ports -/

/-- Settles O1, by the format of the instruction's row: the words with operands field by field, each other word by
evaluation. -/
theorem decodeOfEncode : Obligations.DecodeOfEncode := by
  intro i hwf
  cases i with
  | getStatusDev v x l | getStatusIf v x l | getStatusEp v x l | clearFeatureDev v x l | clearFeatureEp v x l
  | setFeatureDev v x l | setFeatureEp v x l | setAddress v x l | getDescriptor v x l | getConfiguration v x l
  | setConfiguration v x l | getInterface v x l | setInterface v x l =>
    exact decodeSetup_setupPacket (by simp [requestRows]) v x l
  | bulkWrite ep data => exact decodeCmd_bulkWrite ep data (by simpa [Instr.wf] using hwf)
  | bulkRead ep len => exact decodeCmd_bulkRead ep len
  | arm bd len t => exact decodeBdop_arm bd len t
  | drain bd max => exact decodeBdop_drain bd max
  | reclaim bd => exact decodeBdop_reclaim bd
  | status | detach | attach | powered | actv | urst | idle | sof | stall | uerr | trn | trnEp0Setup | trnEp0Out
  | trnEp0In | trnEp1Out | trnEp2Out | trnEp1In | trnEp2In => rfl

/-- Settles O2, by the decoder of each port. -/
theorem encodeOfDecode : Obligations.EncodeOfDecode :=
  ⟨fun _ _ => encode_of_decodeSetup, fun _ _ _ => encode_of_decodeCmd, fun _ _ => encode_of_decodeBdop,
    fun _ _ => encode_of_decodeUstat⟩

/-- Settles O3, by evaluation of the decoders. -/
theorem wordsOfTheSpecDecode : Obligations.WordsOfTheSpecDecode := by
  unfold Obligations.WordsOfTheSpecDecode
  decide

end Sys2Proof

namespace Sys2Proof.Machine

/-- Settles O46: each field is a part of the concatenation (R110). -/
theorem bdImageFields : Obligations.BdImageFields := by
  intro b
  refine ⟨BitVec.extractLsb'_append_eq_right, ?addr, ?own, ?dts, ?stall, ?reserved⟩
  case addr =>
    rw [Bd.image, BitVec.extractLsb'_append_eq_of_le (by decide)]
    exact BitVec.extractLsb'_append_eq_right
  case own | dts | stall =>
    simp only [Bd.image, BitVec.getLsbD_append]
    simp
  case reserved =>
    rw [Bd.image, BitVec.extractLsb'_append_eq_of_le (by decide), BitVec.extractLsb'_append_eq_of_le (by decide),
      BitVec.extractLsb'_append_eq_of_le (by decide), BitVec.extractLsb'_append_eq_of_le (by decide)]
    exact BitVec.extractLsb'_append_eq_left

end Sys2Proof.Machine
end

section
/-! PROOFS. The BD operations (40_bd_handshake.md) and the command port (44_bulk.md): what ARM, DRAIN and RECLAIM
leave, and what each command leaves alone. -/

namespace Sys2Proof.Machine

/-! ## The clamped counts (R163, R166) -/

theorem clampPkt_eq_ofNat (i : BdIndex) (n : Byte) : clampPkt i n = BitVec.ofNat 8 (min n.toNat (maxPkt i)) := by
  rw [← clampPkt_toNat, BitVec.ofNat_toNat, BitVec.setWidth_eq]

theorem drainCount_toNat (b : Bd) (i : BdIndex) (max : Byte) :
    (drainCount b i max).toNat = min max.toNat (min b.count.toNat (maxPkt i)) := by
  rw [drainCount, clampPkt_toNat]
  split <;> omega

theorem drainCount_eq_ofNat (b : Bd) (i : BdIndex) (max : Byte) :
    drainCount b i max = BitVec.ofNat 8 (min max.toNat (min b.count.toNat (maxPkt i))) := by
  rw [← drainCount_toNat, BitVec.ofNat_toNat, BitVec.setWidth_eq]

/-! ## The answers of ARM and DRAIN, by the owner -/

theorem State.armAnswer_of_sw {s : State} {i : BdIndex} (h : (s.bd i).own = .sw) (len : Byte) :
    s.armAnswer i len = { ok := true, n := clampPkt i len, bytes := [] } := by
  simp [State.armAnswer, h]

theorem State.armAnswer_of_hw {s : State} {i : BdIndex} (h : (s.bd i).own = .hw) (len : Byte) :
    s.armAnswer i len = { ok := false, n := 0, bytes := [] } := by
  simp [State.armAnswer, h]

theorem State.drain_of_sw {s : State} {i : BdIndex} (h : (s.bd i).own = .sw) (max : Byte) :
    s.drain i max =
      ({ ok := true, n := drainCount (s.bd i) i max
         bytes := (s.bufRead (baseOf i) (drainCount (s.bd i) i max).toNat).1 },
        (s.bufRead (baseOf i) (drainCount (s.bd i) i max).toNat).2) := by
  simp [State.drain, h]

theorem State.drain_of_hw {s : State} {i : BdIndex} (h : (s.bd i).own = .hw) (max : Byte) :
    s.drain i max = ({ ok := false, n := 0, bytes := [] }, s.draws) := by
  simp [State.drain, h]

/-! ## What the three operations leave -/

/-- Settles O19: the descriptor by `Bd.armed_of_sw` and `State.arm_of_hw`, the count by `clampPkt_eq_ofNat`. -/
theorem armHandsOver : Obligations.ArmHandsOver := by
  intro i len flip s
  have hexec : exec (.arm i len flip) s = .next { s.arm i len flip with bdAnswer := some (s.armAnswer i len) } := rfl
  rw [hexec]
  constructor
  · intro hsw
    have hdts : xor (s.bd i).dts flip = if flip then !(s.bd i).dts else (s.bd i).dts := by cases flip <;> simp
    have hbds : (s.arm i len flip).bds = s.bds.set i ((s.bd i).armed i len flip) := rfl
    rw [Bd.armed_of_sw hsw, clampPkt_eq_ofNat, hdts] at hbds
    rw [State.armAnswer_of_sw hsw, clampPkt_eq_ofNat]
    dsimp only
    rw [← hbds]
    rfl
  · intro hhw
    rw [State.arm_of_hw hhw, State.armAnswer_of_hw hhw]

/-- Settles O20: the bytes and the draws by `State.drain_of_sw`, their number by `drainCount_toNat`. -/
theorem drainCopiesOut : Obligations.DrainCopiesOut := by
  intro i max s
  have hexec : exec (.drain i max) s
      = .next { s.setDraws (s.drain i max).2 with bdAnswer := some (s.drain i max).1 } := rfl
  rw [hexec]
  constructor
  · intro hsw
    rw [State.drain_of_sw hsw, drainCount_toNat, drainCount_eq_ofNat]
    rfl
  · intro hhw
    rw [State.drain_of_hw hhw]
    rfl

/-- Settles O21: RECLAIM is this write of the descriptor, whoever owns it. -/
theorem reclaimReturns : Obligations.ReclaimReturns := fun _ _ => rfl

/-! ## Frames -/

/-- FILL stores at most a packet, from the base of its buffer on (R170). -/
theorem State.fill_byteAt (s : State) (i : BdIndex) (bytes : List Byte) {a : Nat}
    (ha : a < (baseOf i).toNat ∨ (baseOf i).toNat + min bytes.length (maxPkt i) ≤ a) :
    (s.fill i bytes).byteAt a = s.byteAt a := by
  have hfit := baseOf_fits i
  have hlen : (bytes.take (maxPkt i)).length = min bytes.length (maxPkt i) := by rw [List.length_take, Nat.min_comm]
  exact Memory.lookup_write_outside s.mem (baseOf i) _ a (by omega) (by omega)

/-- Settles O26: the BD operations by their definitions, the commands by their inversions. -/
theorem portFrame : Obligations.PortFrame := by
  refine ⟨?arm, ?drain, ?reclaim, ?status, ?bulkRead, ?bulkWrite⟩
  case arm =>
    intro bd len flip s t h
    cases h
    exact ⟨rfl, fun j hj => State.arm_bd_other s len flip hj⟩
  case drain =>
    intro bd max s t h
    cases h
    rfl
  case reclaim =>
    intro bd s t h
    cases h
    exact ⟨rfl, fun j hj => BdFile.get_set_other _ _ hj⟩
  case status =>
    intro s t h
    rw [execStatus_eq_next h]
    rfl
  case bulkRead =>
    intro ep len s t h
    rcases execBulkRead_eq_next h with ⟨r, q, rfl⟩ | ⟨e, n, m, r, q, he, rfl⟩
    · exact ⟨rfl, fun _ _ => rfl⟩
    · exact ⟨rfl, fun j hj => State.arm_bd_other (s.setDraws n) m true (hj e he)⟩
  case bulkWrite =>
    intro ep data s t h
    rcases execBulkWrite_eq_next h with ⟨r, q, rfl⟩ | ⟨e, m, r, q, he, rfl⟩
    · exact ⟨rfl, fun _ _ => ⟨fun _ _ => rfl, fun _ _ => rfl⟩⟩
    · refine ⟨rfl, fun e' he' => ?_⟩
      obtain rfl : e = e' := Option.some.inj (he.symm.trans he')
      exact ⟨fun j hj => State.arm_bd_other (s.fill _ data) m true hj, fun a ha => s.fill_byteAt _ data ha⟩

end Sys2Proof.Machine
end

section
/-! PROOFS. What the block leaves alone while the SIE owns a descriptor (40_bd_handshake.md R172): its buffer always,
and its fields unless the descriptor is reclaimed (R168). `Spares` says so of a state on the way from `s`, and each
operation keeps it. -/

namespace Sys2Proof.Machine

open Sys2Proof.Safety

/-- `t` has the buffer of descriptor `j` as `s` has it, and, where `keep` holds, its fields. -/
structure Spares (j : BdIndex) (keep : Prop) (s t : State) : Prop where
  buffer : ∀ a, (baseOf j).toNat ≤ a → a < (baseOf j).toNat + maxPkt j → t.byteAt a = s.byteAt a
  fields : keep → t.bd j = s.bd j

/-- Running `i` at `s` may reclaim descriptor `j`: RECLAIM itself and its three callers (R168). -/
def mayReclaim (i : Instr) (s : State) (j : BdIndex) : Prop :=
  i = .reclaim j ∨ i = .urst ∨ i = .detach ∨ (∃ v x l, i = .setConfiguration v x l)
    ∨ (runs s i .trnEp0Setup ∧ s.bds.ep0Out.count = 8 ∧ (latchSetup s).setup.extractLsb' 0 16 = 0x0900#16)

/-- ARM changes no descriptor of the SIE, whichever it names (R162). -/
theorem State.arm_bd_of_hw {s : State} {j : BdIndex} (h : (s.bd j).own = .hw) (i : BdIndex) (len : Byte) (t : Bool) :
    (s.arm i len t).bd j = s.bd j := by
  by_cases hji : j = i
  · rw [← hji, State.arm_of_hw h]
  · exact State.arm_bd_other s len t hji

/-- A descriptor of the SIE is a bulk one when the block owns both of EP0. -/
theorem two_le_of_ep0Owned {s : State} {j : BdIndex} (hep0 : ep0Owned s) (hhw : (s.bd j).own = .hw) : 2 ≤ j.val := by
  obtain ⟨hout, hin⟩ := hep0
  by_contra hlt
  have hlow : ∀ j : BdIndex, ¬ 2 ≤ j.val → j = 0 ∨ j = 1 := by decide
  rcases hlow j hlt with rfl | rfl
  · exact absurd (hout.symm.trans hhw) (by decide)
  · exact absurd (hin.symm.trans hhw) (by decide)

theorem BdFile.get_stallEp0_bulk (f : BdFile) (b : Bool) :
    ∀ {j : BdIndex}, 2 ≤ j.val → (f.stallEp0 b).get j = f.get j
  | 0, h | 1, h => absurd h (by decide)
  | 2, _ | 3, _ | 4, _ | 5, _ => rfl

theorem BdFile.get_clearEp0Toggles_bulk (f : BdFile) :
    ∀ {j : BdIndex}, 2 ≤ j.val → f.clearEp0Toggles.get j = f.get j
  | 0, h | 1, h => absurd h (by decide)
  | 2, _ | 3, _ | 4, _ | 5, _ => rfl

/-- On a descriptor the SIE owns, BULK_WRITE only answers (R328). -/
theorem execBulkWrite_of_hw {ep : BitVec 4} {e : Fin 3} {data : List Byte} {s t : State} (he : bulkEp ep = some e)
    (hhw : (s.bd (bdOf e .inward)).own = .hw) (h : execBulkWrite ep data s = .next t) : ∃ r q, t = s.answer r q := by
  simp only [execBulkWrite, he, hhw, ite_self, withDevState_eq_next, Host.Outcome.next.injEq] at h
  exact ⟨_, _, h.2.symm⟩

namespace Spares

variable {j : BdIndex} {keep : Prop} {s t : State}

/-! ## State operations -/

theorem of_mem_eq (hmem : t.mem = s.mem) (hfields : keep → t.bd j = s.bd j) : Spares j keep s t where
  buffer a _ _ := by rw [State.byteAt, State.byteAt, hmem]
  fields := hfields

theorem refl (s : State) : Spares j keep s s := of_mem_eq rfl fun _ => rfl

theorem arm (h : Spares j keep s t) (hhw : (s.bd j).own = .hw) (i : BdIndex) (len : Byte) (b : Bool) :
    Spares j keep s (t.arm i len b) where
  buffer := h.buffer
  fields hkeep := (State.arm_bd_of_hw (by rw [h.fields hkeep, hhw]) i len b).trans (h.fields hkeep)

theorem fill (h : Spares j keep s t) {i : BdIndex} (hij : i ≠ j) (bytes : List Byte) :
    Spares j keep s (t.fill i bytes) where
  buffer a hlo hhi := by
    have hdisjoint := buffers_disjoint hij
    exact (t.fill_byteAt i bytes (by omega)).trans (h.buffer a hlo hhi)
  fields := h.fields

/-! ## The control engine -/

theorem dataInChunk {u : State} (h : Spares j keep s u) (hhw : (s.bd j).own = .hw) (hj : 1 ≠ j)
    (ht : dataInChunk u = .next t) : Spares j keep s t := by
  rw [dataInChunk_eq_next] at ht
  obtain ⟨bytes, -, rfl⟩ := ht
  have harm := (h.fill hj bytes).arm hhw 1 (BitVec.ofNat 8 (chunkLen u.remain)) true
  exact ⟨harm.buffer, harm.fields⟩

theorem startIn {u : State} {tab : BitVec 3} {len wLength : BitVec 16} (h : Spares j keep s u)
    (hhw : (s.bd j).own = .hw) (hj : 1 ≠ j) (ht : startIn tab len wLength u = .next t) : Spares j keep s t := by
  rw [startIn_eq_next] at ht
  obtain ⟨u1, hchunk, rfl⟩ := ht
  have h1 : Spares j keep s u1 := dataInChunk (by exact ⟨h.buffer, h.fields⟩) hhw hj hchunk
  have harm := h1.arm hhw 0 64 true
  exact ⟨harm.buffer, harm.fields⟩

theorem startOut (h : Spares j keep s t) (hhw : (s.bd j).own = .hw) : Spares j keep s (startOut t) := by
  have harm := (h.arm hhw 0 64 true).arm hhw 1 0 true
  exact ⟨harm.buffer, harm.fields⟩

theorem contextReset (h : Spares j keep s t) (hj : 2 ≤ j.val) : Spares j keep s (contextReset t) where
  buffer := h.buffer
  fields hkeep := calc
    ((t.bds.stallEp0 false).clearEp0Toggles).get j = (t.bds.stallEp0 false).get j :=
      BdFile.get_clearEp0Toggles_bulk _ hj
    _ = t.bd j := BdFile.get_stallEp0_bulk _ _ hj
    _ = s.bd j := h.fields hkeep

theorem unhandled (h : Spares j keep s t) (hhw : (s.bd j).own = .hw) (hj : 2 ≤ j.val) :
    Spares j keep s (unhandled t) := by
  have hstall : Spares j keep s (t.setBds (t.bds.stallEp0 true)) :=
    ⟨h.buffer, fun hkeep => (BdFile.get_stallEp0_bulk _ _ hj).trans (h.fields hkeep)⟩
  have harm := (hstall.arm hhw 0 64 true).arm hhw 1 0 true
  exact ⟨harm.buffer, harm.fields⟩

theorem applyAddress (h : Spares j keep s t) : Spares j keep s (applyAddress t) := by
  unfold Machine.applyAddress
  split
  · exact ⟨h.buffer, h.fields⟩
  · exact h

/-- A request without an endpoint action writes no descriptor before its data stage (R209). -/
theorem acceptRequest {v : Verdict} (h : Spares j keep s t) (hact : keep → v.act = .none) :
    Spares j keep s (acceptRequest v t) where
  buffer a hlo hhi := by
    rw [State.byteAt, acceptRequest_mem]
    exact h.buffer a hlo hhi
  fields hkeep := by
    have hbds : (Machine.acceptRequest v t).bds = t.bds := by simp [Machine.acceptRequest, hact hkeep, runAct]
    rw [State.bd, hbds]
    exact h.fields hkeep

theorem finishRequest {u : State} {toHost : Bool} {wLength : BitVec 16} {v : Verdict} (h : Spares j keep s u)
    (hhw : (s.bd j).own = .hw) (hj : 2 ≤ j.val) (hact : keep → v.act = .none)
    (ht : finishRequest toHost wLength v u = .next t) : Spares j keep s t := by
  have hne : 1 ≠ j := by
    rintro rfl
    exact absurd hj (by decide)
  rcases finishRequest_eq_next ht with ⟨-, rfl⟩ | ⟨-, -, rfl⟩ | ⟨-, -, hin⟩
  · exact unhandled ⟨h.buffer, h.fields⟩ hhw hj
  · exact (h.acceptRequest hact).startOut hhw
  · exact (h.acceptRequest hact).startIn hhw hne hin

/-! ## Transactions -/

theorem execTrnEp0Setup (hhw : (s.bd j).own = .hw) (hj : 2 ≤ j.val)
    (hkeep : keep → s.bds.ep0Out.count = 8 → (latchSetup s).setup.extractLsb' 0 16 ≠ 0x0900#16)
    (ht : execTrnEp0Setup s = .next t) : Spares j keep s t := by
  rcases execTrnEp0Setup_eq_next ht with ⟨hcount, hfin⟩ | ⟨-, rfl⟩
  · have hlatch : Spares j keep s (latchSetup s) := of_mem_eq rfl fun _ => rfl
    refine (hlatch.contextReset hj).finishRequest hhw hj (fun hk => ?_) hfin
    by_contra hact
    exact hkeep hk hcount (selector_of_dispatch_act hact)
  · have hreset := (refl (keep := keep) s).contextReset hj
    exact unhandled ⟨hreset.buffer, hreset.fields⟩ hhw hj

theorem execTrnEp0Out (hhw : (s.bd j).own = .hw) (ht : execTrnEp0Out s = .next t) : Spares j keep s t := by
  unfold Machine.execTrnEp0Out at ht
  rw [withStage_eq_next] at ht
  obtain ⟨st, -, ht⟩ := ht
  have harm := (refl (keep := keep) s).arm hhw 0 64 true
  cases st <;> cases ht <;> exact ⟨harm.buffer, harm.fields⟩

theorem execTrnEp0In (hhw : (s.bd j).own = .hw) (hj : 1 ≠ j) (ht : execTrnEp0In s = .next t) : Spares j keep s t := by
  unfold Machine.execTrnEp0In at ht
  rw [withStage_eq_next] at ht
  obtain ⟨st, -, ht⟩ := ht
  cases st with
  | setup =>
    cases ht
    exact refl s
  | dataIn =>
    dsimp only at ht
    split at ht
    · exact (refl s).dataInChunk hhw hj ht
    · cases ht
      exact of_mem_eq rfl fun _ => rfl
  | dataOut =>
    cases ht
    have happly := (refl (j := j) (keep := keep) s).applyAddress
    exact ⟨happly.buffer, happly.fields⟩

end Spares

/-! ## Every instruction -/

section
variable {i : Instr} {s t : State} {j : BdIndex}

/-- A request reclaims only as SET_CONFIGURATION. -/
theorem exec_request_spares {packet : BitVec 64} (henc : encode i = .setup packet) (hhw : (s.bd j).own = .hw)
    (hep0 : ep0Owned s) (h : exec i s = .next t) : Spares j (¬ mayReclaim i s j) s t := by
  rw [exec_request henc] at h
  refine (Spares.refl s).finishRequest hhw (two_le_of_ep0Owned hep0 hhw) (fun hkeep => ?_) h
  by_contra hact
  exact hkeep (.inr (.inr (.inr (.inl (requestVerdict_act hact)))))

/-- The Setup handler reclaims only on a SET_CONFIGURATION packet. -/
theorem execTrnEp0Setup_spares (hruns : runs s i .trnEp0Setup) (hhw : (s.bd j).own = .hw) (hep0 : ep0Owned s)
    (h : execTrnEp0Setup s = .next t) : Spares j (¬ mayReclaim i s j) s t :=
  Spares.execTrnEp0Setup hhw (two_le_of_ep0Owned hep0 hhw)
    (fun hkeep hcount hsel => hkeep (.inr (.inr (.inr (.inr ⟨hruns, hcount, hsel⟩))))) h

theorem execTrn_spares (hhw : (s.bd j).own = .hw) (hsetup : runs s .trn .trnEp0Setup → ep0Owned s)
    (hin : runs s .trn .trnEp0In → 1 ≠ j) (h : execTrn s = .next t) : Spares j (¬ mayReclaim .trn s j) s t := by
  obtain ⟨s1, rfl, hs1⟩ := execTrn_eq_next h
  suffices h1 : Spares j (¬ mayReclaim .trn s j) s s1 from ⟨h1.buffer, h1.fields⟩
  rcases hs1 with ⟨-, rfl⟩ | ⟨hdev, ⟨hu, hrun⟩ | ⟨-, hrun⟩ | ⟨hu, hrun⟩ | ⟨-, -, -, rfl | rfl⟩⟩
  · exact .refl _
  · have hruns : runs s .trn .trnEp0Setup := .inr ⟨rfl, hdev, by rw [hu]; rfl⟩
    exact execTrnEp0Setup_spares hruns hhw (hsetup hruns) hrun
  · exact .execTrnEp0Out hhw hrun
  · exact .execTrnEp0In hhw (hin (.inr ⟨rfl, hdev, by rw [hu]; rfl⟩)) hrun
  · exact .refl _
  · exact .of_mem_eq rfl fun _ => rfl

theorem execBulkWrite_spares {keep : Prop} {ep : BitVec 4} {data : List Byte} (hhw : (s.bd j).own = .hw)
    (h : execBulkWrite ep data s = .next t) : Spares j keep s t := by
  rcases execBulkWrite_eq_next h with ⟨r, q, rfl⟩ | ⟨e, m, r, q, he, ht⟩
  · exact .of_mem_eq rfl fun _ => rfl
  · by_cases hij : bdOf e .inward = j
    · obtain ⟨r, q, rfl⟩ := execBulkWrite_of_hw he (by rw [hij, hhw]) h
      exact .of_mem_eq rfl fun _ => rfl
    · subst ht
      have harm := ((Spares.refl (keep := keep) s).fill hij data).arm hhw (bdOf e .inward) m true
      exact ⟨harm.buffer, harm.fields⟩

theorem execBulkRead_spares {keep : Prop} {ep : BitVec 4} {len : Byte} (hhw : (s.bd j).own = .hw)
    (h : execBulkRead ep len s = .next t) : Spares j keep s t := by
  rcases execBulkRead_eq_next h with ⟨r, q, rfl⟩ | ⟨e, n, m, r, q, -, rfl⟩
  · exact .of_mem_eq rfl fun _ => rfl
  · exact .of_mem_eq rfl fun _ => State.arm_bd_of_hw (s := s.setDraws n) hhw (bdOf e .outward) m true

/-- What each instruction leaves of a descriptor the SIE owns (R172). -/
theorem exec_spares (hhw : (s.bd j).own = .hw)
    (hep0 : (∃ packet, encode i = .setup packet) ∨ runs s i .trnEp0Setup → ep0Owned s)
    (hin : runs s i .trnEp0In → 1 ≠ j) (h : exec i s = .next t) : Spares j (¬ mayReclaim i s j) s t := by
  cases i
  case getStatusDev | getStatusIf | getStatusEp | clearFeatureDev | clearFeatureEp | setFeatureDev | setFeatureEp
      | setAddress | getDescriptor | getConfiguration | setConfiguration | getInterface | setInterface =>
    exact exec_request_spares rfl hhw (hep0 (.inl ⟨_, rfl⟩)) h
  case bulkWrite => exact execBulkWrite_spares hhw h
  case bulkRead => exact execBulkRead_spares hhw h
  case status =>
    rw [execStatus_eq_next h]
    exact .of_mem_eq rfl fun _ => rfl
  case arm bd len flip =>
    cases h
    exact .of_mem_eq rfl fun _ => State.arm_bd_of_hw hhw bd len flip
  case reclaim bd =>
    cases h
    refine .of_mem_eq rfl fun hkeep => BdFile.get_set_other _ _ ?_
    rintro rfl
    exact hkeep (.inl rfl)
  case drain | attach | powered | actv | idle | sof | stall | uerr | trnEp1Out | trnEp2Out | trnEp1In | trnEp2In =>
    cases h
    exact .of_mem_eq rfl fun _ => rfl
  case detach =>
    cases h
    exact .of_mem_eq rfl fun hkeep => absurd (.inr (.inr (.inl rfl))) hkeep
  case urst =>
    rcases execUrst_eq_next h with ⟨-, rfl⟩ | ⟨-, rfl⟩ <;>
      exact .of_mem_eq rfl fun hkeep => absurd (.inr (.inl rfl)) hkeep
  case trn => exact execTrn_spares hhw (fun hruns => hep0 (.inr hruns)) hin h
  case trnEp0Setup => exact execTrnEp0Setup_spares (.inl rfl) hhw (hep0 (.inr (.inl rfl))) h
  case trnEp0Out => exact .execTrnEp0Out hhw h
  case trnEp0In => exact .execTrnEp0In hhw (hin (.inl rfl)) h

/-- A legal state with a latched EP0 transaction has its descriptors back: (I7) of R61. -/
theorem latched_ep0_owned (hlegal : Legal s) (htrn : s.uir.getLsbD 3 = true) :
    (runs s .trn .trnEp0Setup → ep0Owned s) ∧ (runs s .trn .trnEp0In → s.bds.ep0In.own = .sw) := by
  obtain ⟨hout, hin⟩ := hlegal.latch htrn
  have latchOf {h : Instr} {u : Byte} (hne : Instr.trn ≠ h) (henc : encode h = .ustat u) (hruns : runs s .trn h) :
      s.ustat &&& 0x7F = u := by
    rcases hruns with heq | ⟨-, -, hrow⟩
    · exact absurd heq hne
    · exact (PortWord.ustat.inj (henc.symm.trans hrow)).symm
  constructor
  · intro hruns
    have hu := latchOf (by decide) rfl hruns
    exact ⟨hout (.inl hu), hin (.inl hu)⟩
  · intro hruns
    exact hin (.inr (latchOf (by decide) rfl hruns))

end

/-- Settles O22: the instructions by `exec_spares`, the legal states by (I7). -/
theorem blockLeavesSieDescriptors : Obligations.BlockLeavesSieDescriptors := by
  refine ⟨fun i s t j hhw hep0 hin h => ?_, fun s => latched_ep0_owned⟩
  have hne (hruns : runs s i .trnEp0In) : 1 ≠ j := by
    rintro rfl
    exact absurd ((hin hruns).symm.trans hhw) (by decide)
  have hspares := exec_spares hhw hep0 hne h
  refine ⟨hspares.buffer, fun hreclaim hurst hdetach hconfig hsetup => hspares.fields ?_⟩
  rintro (hi | hi | hi | ⟨v, x, l, hi⟩ | ⟨hruns, hcount, hsel⟩)
  · exact hreclaim hi
  · exact hurst hi
  · exact hdetach hi
  · exact hconfig v x l hi
  · exact hsetup hruns hcount hsel

end Sys2Proof.Machine
end

section
/-! PROOFS. The transactions of EP0 by stage (41_control_engine.md sections 3 to 5): what ARM, a chunk and each handler
leave when the block owns the descriptors they arm. -/

namespace Sys2Proof.Machine

open Sys2Proof.Safety

/-! ## The operations on the EP0 descriptors -/

/-- EP0 OUT armed for the next packet (R161). -/
theorem State.arm_ep0Out {s : State} (h : s.bds.ep0Out.own = .sw) :
    s.arm 0 64 true = { s with bds := { s.bds with ep0Out := handedOver s.bds.ep0Out 64 0x00 } } := by
  have harmed : s.bds.ep0Out.armed 0 64 true = handedOver s.bds.ep0Out 64 0x00 := by
    rw [Bd.armed_of_sw h, Bool.xor_true]
    rfl
  simp only [State.arm, BdFile.arm, BdFile.get, BdFile.set, harmed]
  rfl

/-- EP0 IN armed with a packet that fits (R161). -/
theorem State.arm_ep0In {s : State} (h : s.bds.ep0In.own = .sw) {n : Nat} (hn : n ≤ 64) :
    s.arm 1 (BitVec.ofNat 8 n) true
      = { s with bds := { s.bds with ep0In := handedOver s.bds.ep0In (BitVec.ofNat 8 n) 0x40 } } := by
  have hmin : min (n % 2 ^ 8) (maxPkt 1) = n := by
    rw [show maxPkt 1 = 64 from rfl]
    omega
  have harmed : s.bds.ep0In.armed 1 (BitVec.ofNat 8 n) true = handedOver s.bds.ep0In (BitVec.ofNat 8 n) 0x40 := by
    rw [Bd.armed_of_sw h, Bool.xor_true, clampPkt_eq_ofNat, BitVec.toNat_ofNat, hmin]
    rfl
  simp only [State.arm, BdFile.arm, BdFile.get, BdFile.set, harmed]
  rfl

/-- A chunk whose bytes lie in their table (R197). -/
theorem dataInChunk_of_table {s : State} {b : List Byte} (hown : s.bds.ep0In.own = .sw)
    (htable : s.table s.srcT = some b) (hfits : s.srcOff.toNat + s.remain.toNat ≤ b.length) :
    dataInChunk s = .next { s with
      mem := s.mem.write 0x40 ((b.drop s.srcOff.toNat).take (chunkLen s.remain))
      srcOff := s.srcOff + BitVec.ofNat 8 (chunkLen s.remain)
      remain := s.remain - BitVec.ofNat 16 (chunkLen s.remain)
      bds := { s.bds with ep0In := handedOver s.bds.ep0In (BitVec.ofNat 8 (chunkLen s.remain)) 0x40 } } := by
  have hrem : chunkLen s.remain ≤ s.remain.toNat := Nat.min_le_left ..
  have h64 : chunkLen s.remain ≤ maxPkt 1 := Nat.min_le_right ..
  have hpacket : ((b.drop s.srcOff.toNat).take (chunkLen s.remain)).take (maxPkt 1)
      = (b.drop s.srcOff.toNat).take (chunkLen s.remain) := by
    rw [List.take_take, Nat.min_eq_right h64]
  have hbds := congrArg State.bds (State.arm_ep0In hown h64)
  rw [dataInChunk_eq_next]
  refine ⟨_, State.romRead_eq_some.2 ⟨b, htable, by omega, rfl⟩, ?_⟩
  rw [State.fill, hpacket, show s.bds.arm 1 (BitVec.ofNat 8 (chunkLen s.remain)) true = _ from hbds]
  rfl

/-! ## The handlers, by the stage register -/

theorem execTrnEp0Out_setup {s : State} (h : s.stage = 0) : execTrnEp0Out s = .next (s.arm 0 64 true) := by
  simp [execTrnEp0Out, withStage, State.stage?, h]

theorem execTrnEp0Out_dataOut {s : State} (h : s.stage = 1) :
    execTrnEp0Out s = .next (({ s with rxtot := s.rxtot + (s.bd 0).count.setWidth 16 }).arm 0 64 true) := by
  simp [execTrnEp0Out, withStage, State.stage?, h]

theorem execTrnEp0Out_dataIn {s : State} (h : s.stage = 2) :
    execTrnEp0Out s = .next (({ s with stage := stageSetup }).arm 0 64 true) := by
  simp [execTrnEp0Out, withStage, State.stage?, h]

theorem execTrnEp0In_setup {s : State} (h : s.stage = 0) : execTrnEp0In s = .next s := by
  simp [execTrnEp0In, withStage, State.stage?, h]

theorem execTrnEp0In_dataOut {s : State} (h : s.stage = 1) :
    execTrnEp0In s = .next { applyAddress s with stage := stageSetup } := by
  simp [execTrnEp0In, withStage, State.stage?, h]

theorem execTrnEp0In_dataIn {s : State} (h : s.stage = 2) :
    execTrnEp0In s = if s.remain ≠ 0 then dataInChunk s else .next { s with stage := stageSetup } := by
  simp [execTrnEp0In, withStage, State.stage?, h]

/-- Settles O33: the handler's three stages, each ending in the ARM of `State.arm_ep0Out`. -/
theorem ep0OutByStage : Obligations.Ep0OutByStage := by
  intro s hown
  refine ⟨fun h => ?_, fun h => ?_, fun h => ?_⟩
  · exact (execTrnEp0Out_setup h).trans (congrArg _ (State.arm_ep0Out hown))
  · exact (execTrnEp0Out_dataOut h).trans (congrArg _ (State.arm_ep0Out hown))
  · exact (execTrnEp0Out_dataIn h).trans (congrArg _ (State.arm_ep0Out hown))

/-- Settles O34: the handler's three stages, the pending address by `applyAddress` and the chunk by
`dataInChunk_of_table`. -/
theorem ep0InByStage : Obligations.Ep0InByStage := by
  intro s
  refine ⟨fun h => ?setup, fun h => ?dataOut, fun h hrem => ?ended, fun b h hrem hown htable hfits => ?chunk⟩
  case setup => exact execTrnEp0In_setup h
  case dataOut =>
    refine (execTrnEp0In_dataOut h).trans (congrArg _ ?_)
    cases hpend : s.apend <;> simp [applyAddress, hpend]
  case ended => exact (execTrnEp0In_dataIn h).trans (if_neg (by simp [hrem]))
  case chunk =>
    exact ((execTrnEp0In_dataIn h).trans (if_pos hrem)).trans (dataInChunk_of_table hown htable hfits)

end Sys2Proof.Machine
end

section
/-! PROOFS. How a request ends (41_control_engine.md section 2, 42_std_requests.md): refused by a failed field check, or
run by the Setup handler, which forgets the old transfer first. -/

namespace Sys2Proof.Machine

open Sys2Proof.Safety

/-! ## Unhandled requests (R193) -/

/-- UNHANDLED where the block owns both EP0 descriptors. -/
theorem unhandled_eq_stalled {s : State} (h : ep0Owned s) : unhandled { s with handled := false } = stalled s := by
  obtain ⟨hout, hin⟩ := h
  have hout' := Bd.armed_of_sw (b := { s.bds.ep0Out with stall := true }) hout 0 64 true
  have hin' := Bd.armed_of_sw (b := { s.bds.ep0In with stall := true }) hin 1 0 true
  have hbds : ((s.bds.stallEp0 true).arm 0 64 true).arm 1 0 true = (stalled s).bds := by
    simp only [BdFile.stallEp0, BdFile.arm, BdFile.get, BdFile.set, hout', hin', Bool.xor_true]
    rfl
  rw [unhandled, hbds]
  rfl

/-- A request whose verdict is "unhandled" only stalls EP0. -/
theorem exec_request_unhandled {i : Instr} {packet : BitVec 64} {s : State} (henc : encode i = .setup packet)
    (hown : ep0Owned s) (hdev : s.devstate ≤ 5) (hv : (requestVerdict i s.devRec).handled = false) :
    exec i s = .next (stalled s) := by
  rw [exec_request henc, finishRequest_unhandled (State.devOk_of_le hdev) hv, unhandled_eq_stalled hown]

/-! ## The field checks -/

/-- An endpoint operand with a reserved bit set or an endpoint above 2 (R253). -/
def badOperand (x : BitVec 16) : Prop :=
  x.extractLsb' 8 8 ≠ 0#8 ∨ x.extractLsb' 4 3 ≠ 0#3 ∨ 2 < (x.extractLsb' 0 4).toNat

/-- `EPOPERAND` refuses a bad layout and an endpoint the block does not have (R253). -/
theorem epOperand_eq_none {x : BitVec 16} (h : badOperand x) : epOperand x = none := by
  unfold epOperand
  by_cases hlayout : x.extractLsb' 8 8 ≠ 0 ∨ x.extractLsb' 4 3 ≠ 0
  · rw [if_pos hlayout]
  · obtain ⟨h8, h4⟩ := not_or.1 hlayout
    have hep : 2 < (x.extractLsb' 0 4).toNat := (h.resolve_left h8).resolve_left h4
    rw [if_neg hlayout, show epOf (x.extractLsb' 0 4) = none from dif_neg (by omega)]

/-- An operand that names endpoint 0 gives no other endpoint (R252). -/
theorem epOperand_zero {x : BitVec 16} (h : x.extractLsb' 0 4 = 0#4) {ep : Fin 3} {dir : Dir}
    (hx : epOperand x = some (ep, dir)) : ep = 0 := by
  unfold epOperand at hx
  rw [h, show epOf 0#4 = some 0 from rfl] at hx
  by_cases hlayout : x.extractLsb' 8 8 ≠ 0 ∨ x.extractLsb' 4 3 ≠ 0
  · rw [if_pos hlayout] at hx
    cases hx
  · rw [if_neg hlayout] at hx
    cases hx
    rfl

/-- A check whose failure is answered `UNH` (R230). -/
theorem handled_ite_unh {c : Prop} [Decidable c] (h : c) (d : DevRec) (v : Verdict) :
    (if c then Verdict.unh d else v).handled = false := by
  rw [if_pos h]
  rfl

/-- An address above 127, and any address in Configured, is refused (R255, R256). -/
theorem verdictSetAddress_unhandled {v : BitVec 16} {d : DevRec} (h : 127 < v.toNat ∨ d.devstate = 5) :
    (verdictSetAddress v d).handled = false := by
  unfold verdictSetAddress
  split_ifs with hlarge hconf
  · rfl
  · rfl
  · exact absurd h (not_or.2 ⟨hlarge, hconf⟩)

/-- The halt feature is refused for a nonzero selector, a bad operand and endpoint 0 (R250 to R252). -/
theorem verdictHalt_unhandled {v x : BitVec 16} (h : v ≠ 0 ∨ badOperand x ∨ x.extractLsb' 0 4 = 0#4) (b : Bool)
    (d : DevRec) : (verdictHalt v x b d).handled = false := by
  unfold verdictHalt
  split_ifs with hv
  · rfl
  · have hx := h.resolve_left fun hne => hv hne
    split
    · rfl
    · rename_i ep dir hop
      rcases hx with hbad | hzero
      · rw [epOperand_eq_none hbad] at hop
        cases hop
      · rw [if_pos (epOperand_zero hzero hop)]
        rfl

/-- The descriptor type and index that name no table are refused (R258). -/
theorem verdictGetDescriptor_unhandled {v : BitVec 16}
    (h : v.extractLsb' 8 8 = 0#8 ∨ 3 < (v.extractLsb' 8 8).toNat
      ∨ (v.extractLsb' 8 8 = 2#8 ∧ v.extractLsb' 0 8 ≠ 0#8)
      ∨ (v.extractLsb' 8 8 = 3#8 ∧ 2 < (v.extractLsb' 0 8).toNat)) (d : DevRec) :
    (verdictGetDescriptor v d).handled = false := by
  unfold verdictGetDescriptor
  generalize v.extractLsb' 8 8 = ty, v.extractLsb' 0 8 = ix at h
  dsimp only
  have h1 : ty ≠ 0x01 := by
    rintro rfl
    simp at h
  have h2 : ¬(ty = 0x02 ∧ ix = 0) := by
    rintro ⟨rfl, rfl⟩
    simp at h
  have h3 : ¬(ty = 0x03 ∧ ix ≤ 2) := by
    rintro ⟨rfl, hix⟩
    rw [BitVec.le_def] at hix
    simp at h hix
    omega
  rw [if_neg h1, if_neg h2, if_neg h3]
  rfl

/-- Settles O17: each failed check makes its verdict "unhandled", and `exec_request_unhandled` does the rest. -/
theorem failedChecksStallEp0 : Obligations.FailedChecksStallEp0 := by
  intro s v x l hown hdev
  refine ⟨fun h => ?getStatusIf, fun h => ?getStatusEp, fun h => ?clearFeatureDev, fun h => ?setFeatureDev,
    fun h => ?clearFeatureEp, fun h => ?setFeatureEp, fun h => ?setAddress, fun h => ?getDescriptor,
    fun h => ?getInterface, fun h => ?setInterface⟩ <;> refine exec_request_unhandled rfl hown hdev ?_
  case getStatusIf => exact handled_ite_unh h _ _
  case getStatusEp => simp [requestVerdict, verdictGetStatusEp, epOperand_eq_none h, Verdict.unh]
  case clearFeatureDev => exact handled_ite_unh h _ _
  case setFeatureDev => exact handled_ite_unh h _ _
  case clearFeatureEp => exact verdictHalt_unhandled h false s.devRec
  case setFeatureEp => exact verdictHalt_unhandled h true s.devRec
  case setAddress => exact verdictSetAddress_unhandled h
  case getDescriptor => exact verdictGetDescriptor_unhandled h s.devRec
  case getInterface => exact handled_ite_unh h _ _
  case setInterface => exact handled_ite_unh h _ _

/-! ## The Setup handler (R191, R192, R205) -/

/-- CONTEXT_RESET overwrites the context, the pending flag and the stall and toggle of both EP0 descriptors: what they
held is gone (R192). -/
theorem contextReset_forgets (s : State) (stage : BitVec 2) (remain rxtot : BitVec 16) (srcT : BitVec 3)
    (srcOff : BitVec 8) (handled apend d0 d1 st0 st1 : Bool) :
    contextReset { s with
      stage := stage, remain := remain, rxtot := rxtot, srcT := srcT, srcOff := srcOff, handled := handled
      apend := apend
      bds := { s.bds with
        ep0Out := { s.bds.ep0Out with dts := d0, stall := st0 }
        ep0In := { s.bds.ep0In with dts := d1, stall := st1 } } } = contextReset s := rfl

/-- Settles O36: the packet's count and bytes are not of the old transfer, and after the latch the handler goes on from
the reset context alone. -/
theorem setupForgetsTheOldTransfer : Obligations.SetupForgetsTheOldTransfer := by
  intro s stage remain rxtot srcT srcOff handled apend d0 d1 st0 st1
  have hreset := contextReset_forgets s stage remain rxtot srcT srcOff handled apend d0 d1 st0 st1
  have hlatch := contextReset_forgets (latchSetup s) stage remain rxtot srcT srcOff handled apend d0 d1 st0 st1
  dsimp only [exec, execTrnEp0Setup]
  rw [hreset]
  exact congrArg (fun u : State => if s.bds.ep0Out.count = 8 then
    finishRequest (setupToHost u.setup) (setupLength u.setup) (dispatchRequest u.setup u.devRec) u
    else .next (unhandled { contextReset s with handled := false })) hlatch

/-- START_OUT where the block owns both EP0 descriptors (R195). -/
theorem startOut_of_owned {s : State} (h : ep0Owned s) :
    startOut s = { s with
      stage := 1
      bds := { s.bds with
        ep0Out := handedOver s.bds.ep0Out 64 0x00
        ep0In := handedOver s.bds.ep0In 0 0x40 } } := by
  rw [startOut, State.arm_ep0Out h.1]
  exact congrArg (fun u : State => { u with stage := stageDataOut })
    (State.arm_ep0In (s := { s with bds := { s.bds with ep0Out := handedOver s.bds.ep0Out 64 0x00 } }) h.2
      (Nat.zero_le 64))

/-- The clamp of a response to `wLength` is the smaller of the two (R194). -/
theorem toNat_clampLength (len wLength : BitVec 16) :
    (if len ≤ wLength then len else wLength).toNat = min len.toNat wLength.toNat := by
  simp only [BitVec.le_def]
  split <;> omega

/-- START_IN where the block owns both EP0 descriptors and the response lies in its table (R194): of the context it
writes what the first chunk writes. -/
theorem startIn_completes {tab : BitVec 3} {len wLength : BitVec 16} {s : State} (h : ep0Owned s) (htab : tab.toNat < 6)
    (hlen : len.toNat ≤ tlen tab) :
    ∃ n remain srcOff mem, startIn tab len wLength s = .next { s with
      stage := 2, srcT := tab, srcOff := srcOff, remain := remain, mem := mem
      bds := { s.bds with
        ep0Out := handedOver s.bds.ep0Out 64 0x00
        ep0In := handedOver s.bds.ep0In n 0x40 } } := by
  obtain ⟨b, hb⟩ := s.table_isSome htab
  have hsize := State.length_table hb
  have hfits : (0 : BitVec 8).toNat + (if len ≤ wLength then len else wLength).toNat ≤ b.length := by
    rw [toNat_clampLength, show (0 : BitVec 8).toNat = 0 from rfl]
    omega
  have hchunk := dataInChunk_of_table
    (s := { s with remain := if len ≤ wLength then len else wLength, srcT := tab, srcOff := 0 }) h.2 hb hfits
  refine ⟨_, _, _, _, startIn_eq_next.2 ⟨_, hchunk, .symm (State.arm_ep0Out ?_)⟩⟩
  exact h.1

@[simp] theorem acceptRequest_ep0Out (v : Verdict) (s : State) :
    (acceptRequest v s).bds.ep0Out = s.bds.ep0Out := by
  have hact (u : State) : (runAct u v.act).bds.ep0Out = u.bds.ep0Out := by cases v.act <;> rfl
  simp [acceptRequest, hact]

@[simp] theorem acceptRequest_ep0In (v : Verdict) (s : State) : (acceptRequest v s).bds.ep0In = s.bds.ep0In := by
  have hact (u : State) : (runAct u v.act).bds.ep0In = u.bds.ep0In := by cases v.act <;> rfl
  simp [acceptRequest, hact]

@[simp] theorem acceptRequest_setup (v : Verdict) (s : State) : (acceptRequest v s).setup = s.setup := by
  have hact (u : State) : (runAct u v.act).setup = u.setup := by cases v.act <;> rfl
  simp [acceptRequest, hact]

@[simp] theorem acceptRequest_rxtot (v : Verdict) (s : State) : (acceptRequest v s).rxtot = s.rxtot := by
  have hact (u : State) : (runAct u v.act).rxtot = u.rxtot := by cases v.act <;> rfl
  simp [acceptRequest, hact]

/-- A descriptor of EP0 after the Setup handler: with the SIE at DATA1, stalled when the request was refused. -/
def setupArmed (handled : Bool) (count addr : Byte) : Bd :=
  { own := .hw, dts := true, stall := !handled, count := count, addr := addr }

/-- What the Setup handler leaves, `u` being the state with the packet latched and `toHost` the direction the packet
gives (R191 to R195). -/
structure SetupServed (u t : State) (toHost : Bool) : Prop where
  setup : t.setup = u.setup
  rxtot : t.rxtot = 0
  ep0Out : t.bds.ep0Out = setupArmed t.handled 64 0x00
  ep0In : ∃ n, t.bds.ep0In = setupArmed t.handled n 0x40
  unhandled : t.handled = false → t.stage = 0 ∧ t.remain = 0 ∧ t.apend = false ∧ t.bds.ep0In.count = 0
  handled : t.handled = true → t.stage = if toHost then 2 else 1

/-- The refusal of R193 after the context reset. -/
theorem stalled_served (u : State) (toHost : Bool) : SetupServed u (stalled (contextReset u)) toHost where
  setup := rfl
  rxtot := rfl
  ep0Out := rfl
  ep0In := ⟨0, rfl⟩
  unhandled _ := ⟨rfl, rfl, rfl, rfl⟩
  handled h := nomatch h

/-- The three ends of a request after the context reset: stalled, a Data-Out stage, a Data-In stage whose response lies
in its table. -/
theorem finishRequest_served {u : State} {v : Verdict} (hown : ep0Owned u) (hdev : u.devstate ≤ 5)
    (hv : VerdictFits (contextReset u).devRec v) (toHost : Bool) (wLength : BitVec 16) :
    ∃ t, finishRequest toHost wLength v (contextReset u) = .next t ∧ SetupServed u t toHost := by
  have hok : (contextReset u).devOk = true := State.devOk_of_le hdev
  have hreset : ep0Owned (contextReset u) := hown
  have hacc : ep0Owned (acceptRequest v (contextReset u)) := by
    simpa only [ep0Owned, acceptRequest_ep0Out, acceptRequest_ep0In] using hreset
  have harmed (n a : Byte) :
      handedOver (acceptRequest v (contextReset u)).bds.ep0Out n a = setupArmed true n a
        ∧ handedOver (acceptRequest v (contextReset u)).bds.ep0In n a = setupArmed true n a := by
    rw [acceptRequest_ep0Out, acceptRequest_ep0In]
    exact ⟨rfl, rfl⟩
  cases hh : v.handled with
  | false =>
    rw [finishRequest_unhandled hok hh, unhandled_eq_stalled hreset]
    exact ⟨_, rfl, stalled_served u toHost⟩
  | true =>
    cases toHost with
    | false =>
      rw [finishRequest_out hok hh, startOut_of_owned hacc]
      exact ⟨_, rfl, acceptRequest_setup .., acceptRequest_rxtot .., (harmed _ _).1, ⟨_, (harmed _ _).2⟩,
        (fun h => nomatch h), fun _ => rfl⟩
    | true =>
      obtain ⟨n, remain, srcOff, mem, hin⟩ := startIn_completes (wLength := wLength) hacc hv.tab hv.len
      rw [finishRequest_in hok hh, hin]
      exact ⟨_, rfl, acceptRequest_setup .., acceptRequest_rxtot .., (harmed _ _).1, ⟨_, (harmed _ _).2⟩,
        (fun h => nomatch h), fun _ => rfl⟩

/-- The handler on a packet of 8 bytes (R191). -/
theorem execTrnEp0Setup_of_count {s : State} (h : s.bds.ep0Out.count = 8) :
    execTrnEp0Setup s = finishRequest (setupToHost (latchSetup s).setup) (setupLength (latchSetup s).setup)
      (dispatchRequest (latchSetup s).setup (contextReset (latchSetup s)).devRec) (contextReset (latchSetup s)) :=
  if_pos h

/-- The handler on any other count only stalls EP0 (R191, R193). -/
theorem execTrnEp0Setup_of_count_ne {s : State} (hown : ep0Owned s) (h : s.bds.ep0Out.count ≠ 8) :
    execTrnEp0Setup s = .next (stalled (contextReset s)) :=
  (if_neg h).trans (congrArg _ (unhandled_eq_stalled (s := contextReset s) hown))

/-- Settles O35: with 8 bytes the handler ends as a request does (`finishRequest_served`), otherwise stalled. -/
theorem setupHandlerCompletes : Obligations.SetupHandlerCompletes := by
  intro s hown
  have hserved (hdev : s.devstate ≤ 5) :
      ∃ t u, exec .trnEp0Setup s = .next t ∧ SetupServed u t (setupToHost u.setup)
        ∧ u.setup = if s.bds.ep0Out.count = 8 then le64 (s.bufRead 0x00 8).1 else s.setup := by
    by_cases hcount : s.bds.ep0Out.count = 8
    · obtain ⟨t, ht, hdone⟩ := finishRequest_served (u := latchSetup s) hown hdev (VerdictFits.dispatch _ _)
        (setupToHost (latchSetup s).setup) (setupLength (latchSetup s).setup)
      exact ⟨t, latchSetup s, (execTrnEp0Setup_of_count hcount).trans ht, hdone, (if_pos hcount).symm⟩
    · exact ⟨_, s, execTrnEp0Setup_of_count_ne hown hcount, stalled_served s _, (if_neg hcount).symm⟩
  refine ⟨fun hdev => ?completes, fun e hdev hcount hdec => ?noRequest, execTrnEp0Setup_of_count_ne hown⟩
  case completes =>
    obtain ⟨t, u, ht, hdone, hsetup⟩ := hserved hdev
    obtain ⟨n, hin⟩ := hdone.ep0In
    refine ⟨t, ht, hdone.setup.trans hsetup, hdone.rxtot, ?_⟩
    have hstage := hdone.handled
    rw [setupToHost, ← hdone.setup] at hstage
    rw [hdone.ep0Out, hin]
    exact ⟨rfl, rfl, rfl, rfl, rfl, rfl, rfl, by rw [← hin]; exact hdone.unhandled, hstage⟩
  case noRequest =>
    have hok : (contextReset (latchSetup s)).devOk = true := State.devOk_of_le hdev
    have hunh (d : DevRec) : (dispatchRequest (latchSetup s).setup d).handled = false := by
      rw [dispatchRequest, hdec]
      rfl
    refine (execTrnEp0Setup_of_count hcount).trans ?_
    rw [finishRequest_unhandled hok (hunh _)]
    exact congrArg _ (unhandled_eq_stalled (s := contextReset (latchSetup s)) hown)

end Sys2Proof.Machine
end

section
/-! PROOFS. The frame of TRN and of the EP0 transactions: the registers around them, as one projection of the state, and
the bytes of EP0 IN that each may store. -/

namespace Sys2Proof.Machine

open Sys2Proof.Safety

/-! ## EP0 OUT and EP0 IN, said once -/

/-- EP0 OUT ends in an ARM, whatever it did to the stage and the received total before (R200, R201, R206). -/
theorem execTrnEp0Out_eq_next {s t : State} (h : execTrnEp0Out s = .next t) :
    ∃ stage rxtot, t = ({ s with stage := stage, rxtot := rxtot }).arm 0 64 true := by
  unfold execTrnEp0Out at h
  rw [withStage_eq_next] at h
  obtain ⟨st, -, h⟩ := h
  cases st <;> cases h <;> exact ⟨_, _, rfl⟩

/-- EP0 IN sends a chunk of a Data-In stage, or at most ends its stage and applies an address (R198, R199, R202 to
R204). -/
theorem execTrnEp0In_eq_next {s t : State} (h : execTrnEp0In s = .next t) :
    (s.stage = 2 ∧ dataInChunk s = .next t)
      ∨ ∃ stage addr devstate apend,
        t = { s with stage := stage, addr := addr, devstate := devstate, apend := apend } := by
  rcases s.stage?_cases with ⟨hst, -⟩ | ⟨hst, -⟩ | ⟨hst, -⟩ | ⟨-, hnone⟩
  · rw [execTrnEp0In_setup hst] at h
    cases h
    exact .inr ⟨_, _, _, _, rfl⟩
  · rw [execTrnEp0In_dataOut hst] at h
    cases h
    unfold applyAddress
    split <;> exact .inr ⟨_, _, _, _, rfl⟩
  · rw [execTrnEp0In_dataIn hst] at h
    split at h
    · exact .inl ⟨hst, h⟩
    · cases h
      exact .inr ⟨_, _, _, _, rfl⟩
  · simp [execTrnEp0In, withStage, hnone] at h

/-! ## The registers around a transaction -/

/-- The registers a transaction leaves alone, with `uir`, of which TRN lowers its flag, and `addr`, which the end of
SET_ADDRESS writes. -/
structure Surroundings where
  uir : Byte
  ustat : Byte
  addr : BitVec 7
  moden : Bool
  vbus : Bool
  se0 : Bool
  susp : Bool
  selfpwr : Bool
  agenda : List Line
  bdBus : Option (BitVec 16)
  resp : Option Resp
  event : Option Event
  bdAnswer : Option BdAnswer

def State.surroundings (s : State) : Surroundings where
  uir := s.uir
  ustat := s.ustat
  addr := s.addr
  moden := s.moden
  vbus := s.vbus
  se0 := s.se0
  susp := s.susp
  selfpwr := s.selfpwr
  agenda := s.agenda
  bdBus := s.bdBus
  resp := s.resp
  event := s.event
  bdAnswer := s.bdAnswer

@[simp] theorem acceptRequest_surroundings (v : Verdict) (s : State) :
    (acceptRequest v s).surroundings = s.surroundings := by
  have hrb (u : State) : ({ u.fillRespBuf v.rb with handled := true } : State).surroundings = u.surroundings := by
    cases v.rb <;> rfl
  rw [acceptRequest, hrb]
  cases v.act <;> rfl

theorem dataInChunk_surroundings {s t : State} (h : dataInChunk s = .next t) : t.surroundings = s.surroundings := by
  rw [dataInChunk_eq_next] at h
  obtain ⟨b, -, rfl⟩ := h
  rfl

theorem startIn_surroundings {tab : BitVec 3} {len wLength : BitVec 16} {s t : State}
    (h : startIn tab len wLength s = .next t) : t.surroundings = s.surroundings := by
  rw [startIn_eq_next] at h
  obtain ⟨s1, hchunk, rfl⟩ := h
  exact (dataInChunk_surroundings hchunk).trans rfl

theorem finishRequest_surroundings {toHost : Bool} {wLength : BitVec 16} {v : Verdict} {s t : State}
    (h : finishRequest toHost wLength v s = .next t) : t.surroundings = s.surroundings := by
  rcases finishRequest_eq_next h with ⟨-, rfl⟩ | ⟨-, -, rfl⟩ | ⟨-, -, hin⟩
  · rfl
  · exact acceptRequest_surroundings v s
  · exact (startIn_surroundings hin).trans (acceptRequest_surroundings v s)

theorem execTrnEp0Setup_surroundings {s t : State} (h : execTrnEp0Setup s = .next t) :
    t.surroundings = s.surroundings := by
  rcases execTrnEp0Setup_eq_next h with ⟨-, hfin⟩ | ⟨-, rfl⟩
  · exact (finishRequest_surroundings hfin).trans rfl
  · rfl

theorem execTrnEp0Out_surroundings {s t : State} (h : execTrnEp0Out s = .next t) :
    t.surroundings = s.surroundings := by
  obtain ⟨stage, rxtot, rfl⟩ := execTrnEp0Out_eq_next h
  rfl

theorem execTrnEp0In_surroundings {s t : State} (h : execTrnEp0In s = .next t) :
    t.surroundings = { s.surroundings with addr := t.addr } := by
  rcases execTrnEp0In_eq_next h with ⟨-, hchunk⟩ | ⟨stage, addr, devstate, apend, rfl⟩
  · have heq := dataInChunk_surroundings hchunk
    rw [← heq]
    rfl
  · rfl

theorem not_bitMask_uirTRN : ~~~(bitMask uirTRN) = 0xF7 := by decide

/-- TRN lowers its own flag, and of the others only `ADDR` may change (R291 to R294). -/
theorem execTrn_surroundings {s t : State} (h : execTrn s = .next t) :
    t.surroundings = { s.surroundings with uir := s.uir &&& 0xF7, addr := t.addr } := by
  obtain ⟨s1, rfl, hs1⟩ := execTrn_eq_next h
  have hclear {u : State} (hu : u.surroundings = { s.surroundings with addr := u.addr }) :
      (u.clearUir uirTRN).surroundings = { s.surroundings with uir := s.uir &&& 0xF7, addr := u.addr } := by
    have huir : u.uir = s.uir := congrArg Surroundings.uir hu
    have hlower := congrArg (fun x : Surroundings => { x with uir := s.uir &&& 0xF7 }) hu
    rw [← hlower, ← huir, ← not_bitMask_uirTRN]
    rfl
  have hkept {u : State} (hu : u.surroundings = s.surroundings) :
      u.surroundings = { s.surroundings with addr := u.addr } := by
    rw [← hu]
    rfl
  rcases hs1 with ⟨-, rfl⟩ | ⟨-, ⟨-, hsetup⟩ | ⟨-, hout⟩ | ⟨-, hin⟩ | ⟨-, -, -, rfl | rfl⟩⟩
  · exact hclear rfl
  · exact hclear (hkept (execTrnEp0Setup_surroundings hsetup))
  · exact hclear (hkept (execTrnEp0Out_surroundings hout))
  · exact hclear (execTrnEp0In_surroundings hin)
  · exact hclear rfl
  · have htwice : (s.clearUir uirTRN).clearUir uirTRN = s.clearUir uirTRN := by
      simp [State.clearUir, BitVec.and_assoc]
    rw [htwice]
    exact hclear rfl

/-! ## The bytes of EP0 IN -/

/-- `t` has every byte of `s` but, at most, the first `n` of the EP0 IN buffer. -/
def StoresEp0In (n : Nat) (s t : State) : Prop :=
  ∀ a, a < (baseOf 1).toNat ∨ (baseOf 1).toNat + n ≤ a → t.byteAt a = s.byteAt a

theorem StoresEp0In.of_mem_eq {n : Nat} {s t : State} (h : t.mem = s.mem) : StoresEp0In n s t := by
  intro a _
  rw [State.byteAt, State.byteAt, h]

theorem dataInChunk_stores {s t : State} (h : dataInChunk s = .next t) :
    StoresEp0In (min s.remain.toNat 64) s t := by
  rw [dataInChunk_eq_next] at h
  obtain ⟨bytes, hrom, rfl⟩ := h
  obtain ⟨b, -, hfits, rfl⟩ := State.romRead_eq_some.1 hrom
  have hlen : ((b.drop s.srcOff.toNat).take (chunkLen s.remain)).length = min s.remain.toNat 64 := by
    rw [List.length_take, List.length_drop]
    exact Nat.min_eq_left (by omega)
  intro a ha
  exact s.fill_byteAt 1 _ (ha.imp_right fun hle => by rw [hlen]; omega)

theorem startIn_stores {tab : BitVec 3} {len wLength : BitVec 16} {s t : State}
    (h : startIn tab len wLength s = .next t) : StoresEp0In (min (min len.toNat wLength.toNat) 64) s t := by
  rw [startIn_eq_next] at h
  obtain ⟨s1, hchunk, rfl⟩ := h
  have hstores := dataInChunk_stores hchunk
  rw [toNat_clampLength] at hstores
  exact hstores

/-- A request stores the first chunk of its answer (R191, R197). -/
theorem finishRequest_stores {toHost : Bool} {wLength : BitVec 16} {v : Verdict} {s t : State}
    (h : finishRequest toHost wLength v s = .next t) : StoresEp0In (replyBytes toHost v wLength) s t := by
  rcases finishRequest_eq_next h with ⟨-, rfl⟩ | ⟨-, -, rfl⟩ | ⟨hv, rfl, hin⟩
  · exact .of_mem_eq rfl
  · exact .of_mem_eq (acceptRequest_mem v s)
  · have hstores := startIn_stores hin
    rw [replyBytes, hv]
    intro a ha
    rw [hstores a ha, State.byteAt, acceptRequest_mem]
    rfl

theorem execTrnEp0Setup_stores {s t : State} (h : execTrnEp0Setup s = .next t) :
    StoresEp0In (setupStores s) s t := by
  rcases execTrnEp0Setup_eq_next h with ⟨hcount, hfin⟩ | ⟨-, rfl⟩
  · have hstores := finishRequest_stores hfin
    rw [setupStores, if_pos hcount]
    exact hstores
  · exact .of_mem_eq rfl

theorem execTrnEp0In_stores {s t : State} (h : execTrnEp0In s = .next t) : StoresEp0In (ep0InStores s) s t := by
  rcases execTrnEp0In_eq_next h with ⟨hstage, hchunk⟩ | ⟨stage, addr, devstate, apend, rfl⟩
  · rw [ep0InStores, if_pos hstage]
    exact dataInChunk_stores hchunk
  · exact .of_mem_eq rfl

theorem execTrn_stores {s t : State} (h : execTrn s = .next t) : StoresEp0In (trnStores s) s t := by
  obtain ⟨s1, rfl, hs1⟩ := execTrn_eq_next h
  suffices h1 : StoresEp0In (trnStores s) s s1 from h1
  rcases hs1 with ⟨-, rfl⟩ | ⟨hdev, ⟨hu, hsetup⟩ | ⟨-, hout⟩ | ⟨hu, hin⟩ | ⟨-, -, -, rfl | rfl⟩⟩
  · exact .of_mem_eq rfl
  · rw [trnStores, if_neg (BitVec.not_lt.2 hdev), if_pos hu]
    exact execTrnEp0Setup_stores hsetup
  · exact .of_mem_eq (execTrnEp0Out_mem hout)
  · rw [trnStores, if_neg (BitVec.not_lt.2 hdev), if_neg (by rw [hu]; decide), if_pos hu]
    exact execTrnEp0In_stores hin
  · exact .of_mem_eq rfl
  · exact .of_mem_eq rfl

/-- Settles O38: the EP0 OUT and IN handlers by their inversions, the registers by `Surroundings`, the bytes by
`StoresEp0In`. -/
theorem transactionFrame : Obligations.TransactionFrame := by
  intro s t
  refine ⟨fun h => ?ep0Out, fun h => ?ep0In, fun h => ?ep0Setup, fun h => ?trn⟩
  case ep0Out =>
    obtain ⟨stage, rxtot, rfl⟩ := execTrnEp0Out_eq_next h
    exact ⟨rfl, fun j hj => State.arm_bd_other _ _ _ hj⟩
  case ep0In =>
    have hstores := execTrnEp0In_stores h
    rcases execTrnEp0In_eq_next h with ⟨-, hchunk⟩ | ⟨stage, addr, devstate, apend, rfl⟩
    · rw [dataInChunk_eq_next] at hchunk
      obtain ⟨b, -, rfl⟩ := hchunk
      exact ⟨rfl, fun j hj => BdFile.get_arm_other _ _ _ hj, hstores⟩
    · exact ⟨rfl, fun _ _ => rfl, hstores⟩
  case ep0Setup =>
    obtain ⟨huir, hustat, haddr, hmoden, hvbus, hse0, hsusp, hselfpwr, hagenda, hbus, hresp, hevent, hanswer⟩ :=
      Surroundings.mk.inj (execTrnEp0Setup_surroundings h)
    exact ⟨huir, hustat, haddr, hmoden, hvbus, hse0, hsusp, hselfpwr, hagenda, hbus, hresp, hevent, hanswer,
      execTrnEp0Setup_stores h⟩
  case trn =>
    obtain ⟨huir, hustat, -, hmoden, hvbus, hse0, hsusp, hselfpwr, hagenda, hbus, hresp, hevent, hanswer⟩ :=
      Surroundings.mk.inj (execTrn_surroundings h)
    exact ⟨huir, hustat, hmoden, hvbus, hse0, hsusp, hselfpwr, hagenda, hbus, hresp, hevent, hanswer,
      execTrn_stores h⟩

end Sys2Proof.Machine
end

section
/-! PROOFS. A control read as the host sees it (41_control_engine.md section 5, R207, R402). `Replying` says of a state
which packet waits in EP0 IN and what of the response is still to come; an IN token with the pump step after it takes
one such state to the next. -/

namespace Sys2Proof.Machine

open Sys2Proof.Safety

/-! ## One IN token and the pump step after it -/

theorem Result.andThen_next (r : Result) : r.andThen .next = r := by cases r <;> rfl

/-- With bus power, from Default on, and with `UIR.TRN` the only flag set, a pump step is the TRN branch (R281). -/
theorem pumpStep_eq_execTrn {s : State} (hvbus : s.vbus = true) (hlo : 3 ≤ s.devstate) (hhi : s.devstate ≤ 5)
    (huir : s.uir = bitMask uirTRN) : pumpStep s = execTrn s := by
  have hdev {d : BitVec 3} (hd : ¬ 3 ≤ d) {q : Prop} : ¬(s.devstate = d ∧ q) := fun h => hd (h.1 ▸ hlo)
  have hdetach : ¬(s.moden = true ∧ s.vbus = false) := by simp [hvbus]
  have htrn : s.uirBit uirTRN = true := by
    rw [State.uirBit, huir]
    decide
  have hother {k : Nat} (hk : (bitMask uirTRN).getLsbD k = false) : ¬ s.uirBit k = true := by
    rw [State.uirBit, huir, hk]
    decide
  rw [pumpStep_eq (State.devOk_of_le hhi)]
  simp only [if_neg hdetach, if_neg (hdev (d := 0) (by decide)), if_neg (hdev (d := 1) (by decide)),
    if_neg (hother (k := uirACTV) (by decide)), if_neg (hother (k := uirURST) (by decide)),
    if_neg (hother (k := uirIDLE) (by decide)), if_neg (hother (k := uirSOF) (by decide)),
    if_neg (hother (k := uirSTALL) (by decide)), if_neg (hother (k := uirUERR) (by decide)), if_pos htrn,
    Result.andThen]
  exact Result.andThen_next _

/-- TRN on a latched EP0 IN from Default on (R291). -/
theorem execTrn_ep0In {s : State} (hlo : 3 ≤ s.devstate) (hhi : s.devstate ≤ 5) (hustat : s.ustat = ustatIn 0) :
    execTrn s = (execTrnEp0In s).andThen fun s1 => .next (s1.clearUir uirTRN) := by
  have hroute : routeTransaction s = execTrnEp0In s := by
    rw [routeTransaction, hustat]
    rfl
  rw [execTrn, withDevState_ok (State.devOk_of_le hhi), if_pos ((s.atLeastDefault_iff).2 hlo), hroute]

/-- The bus is quiet and the device serves EP0: what a control read needs between two tokens. -/
structure Quiet (s : State) : Prop where
  moden : s.moden = true
  vbus : s.vbus = true
  enabled : s.epen.getLsbD 0 = true
  uir : s.uir = 0
  devLo : 3 ≤ s.devstate
  devHi : s.devstate ≤ 5

/-- A token for EP0 passes the gate (R341). -/
theorem Quiet.gate {s : State} (h : Quiet s) : tokenGate s s.addr 0 = .ok 0 :=
  tokenGate_eq_ok.2 ⟨rfl, h.moden, rfl, h.enabled, by rw [State.uirBit, h.uir]; rfl⟩

/-- EP0 IN has no halt (R44). -/
theorem State.not_halted_ep0In (s : State) : ¬ s.halted (bdOf 0 .inward) = true := by
  rw [s.halted_bdOf]
  simp

/-- An IN token is answered NAK while the block owns EP0 IN (R346). -/
theorem Quiet.inToken_nak {s : State} (h : Quiet s) (hown : s.bds.ep0In.own = .sw) :
    sieIn true s.addr 0 s = s.emit .nak := by
  have hbd : (s.bd (bdOf 0 .inward)).own = .sw := hown
  simp only [sieIn, h.gate, if_neg s.not_halted_ep0In, hbd]

/-- The state after an IN token took `packet` from EP0 IN under toggle `d` (R345). -/
def inTaken (s : State) (d : Bool) (packet : List Byte) : State := (s.emit (.data d packet)).complete 1 (ustatIn 0)

/-- An IN token takes the packet of an armed EP0 IN and completes it (R345). -/
theorem Quiet.inToken_sends {s : State} {packet : List Byte} (h : Quiet s) (hown : s.bds.ep0In.own = .hw)
    (hstall : s.bds.ep0In.stall = false)
    (hread : s.bufRead 0x40 s.bds.ep0In.count.toNat = (packet, s.draws)) :
    sieIn true s.addr 0 s = inTaken s s.bds.ep0In.dts packet := by
  have hbd : (s.bd (bdOf 0 .inward)).own = .hw := hown
  have hsend : sieSend (bdOf 0 .inward) s = s.emit (.data s.bds.ep0In.dts packet) := by
    rw [sieSend, show s.bufRead (baseOf (bdOf 0 .inward)) (s.bd (bdOf 0 .inward)).count.toNat = _ from hread]
    rfl
  have hstall' : ¬ (s.bd (bdOf 0 .inward)).stall = true := by
    rw [show (s.bd (bdOf 0 .inward)).stall = false from hstall]
    decide
  simp only [sieIn, h.gate, if_neg s.not_halted_ep0In, hbd, if_neg hstall', hsend, if_true]
  rfl

/-- The pump step after a completed EP0 IN runs its handler and frees the latch. -/
theorem Quiet.pumpStep_after_in {s : State} (h : Quiet s) (d : Bool) (packet : List Byte) :
    pumpStep (inTaken s d packet)
      = (execTrnEp0In (inTaken s d packet)).andThen fun s1 => .next (s1.clearUir uirTRN) := by
  have huir : (inTaken s d packet).uir = bitMask uirTRN := by
    rw [inTaken, State.complete_uir, State.emit_uir, h.uir]
    rfl
  have htrn := pumpStep_eq_execTrn (s := inTaken s d packet) h.vbus h.devLo h.devHi huir
  exact htrn.trans (execTrn_ep0In h.devLo h.devHi rfl)

theorem Quiet.uir_after_in {s : State} (h : Quiet s) :
    (s.uir ||| bitMask uirTRN) &&& ~~~(bitMask uirTRN) = 0 := by
  rw [h.uir]
  decide

/-! ## The response on its way -/

/-- `packet` waits in EP0 IN under toggle `d`, and `rest` is what the Data-In stage has still to send after it. -/
structure Replying (s : State) (d : Bool) (packet rest : List Byte) : Prop where
  quiet : Quiet s
  stage : s.stage = 2
  own : s.bds.ep0In.own = .hw
  stall : s.bds.ep0In.stall = false
  dts : s.bds.ep0In.dts = d
  read : s.bufRead 0x40 s.bds.ep0In.count.toNat = (packet, s.draws)
  source : ∃ b, s.table s.srcT = some b ∧ s.srcOff.toNat + s.remain.toNat ≤ b.length
    ∧ (b.drop s.srcOff.toNat).take s.remain.toNat = rest

theorem Replying.length_rest {s : State} {d : Bool} {packet rest : List Byte} (h : Replying s d packet rest) :
    rest.length = s.remain.toNat := by
  obtain ⟨b, -, hfits, rfl⟩ := h.source
  rw [List.length_take, List.length_drop]
  exact Nat.min_eq_left (by omega)

theorem Replying.inToken {s : State} {d : Bool} {packet rest : List Byte} (h : Replying s d packet rest) :
    sieIn true s.addr 0 s = inTaken s d packet := by
  rw [h.quiet.inToken_sends h.own h.stall h.read, h.dts]

/-- A chunk stored at the base of EP0 IN is read back whole (R83). -/
theorem read_written_packet (m : Memory) (draws : Nat) {packet : List Byte} (h : packet.length ≤ 64) :
    (m.write 0x40 packet).read draws 0x40 (BitVec.ofNat 8 packet.length).toNat = (packet, draws) := by
  rw [BitVec.toNat_ofNat, Nat.mod_eq_of_lt (by omega)]
  refine Memory.read_write m draws 0x40 packet ?_
  rw [show (0x40 : Byte).toNat = 64 from rfl]
  omega

/-- What follows the first chunk of the first `i` bytes of `l` (R197). -/
theorem take_drop_chunk (l : List Byte) (i : Nat) : (l.drop (min i 64)).take (i - min i 64) = (l.take i).drop 64 := by
  rw [List.drop_take]
  rcases Nat.le_total i 64 with hsmall | hlarge
  · rw [Nat.min_eq_left hsmall, Nat.sub_self, Nat.sub_eq_zero_of_le hsmall, List.take_zero, List.take_zero]
  · rw [Nat.min_eq_right hlarge]

theorem toNat_srcOff_add_chunk {off : BitVec 8} {r : BitVec 16} (h : off.toNat + r.toNat < 256) :
    (off + BitVec.ofNat 8 (chunkLen r)).toNat = off.toNat + chunkLen r := by
  have hle : chunkLen r ≤ r.toNat := Nat.min_le_left ..
  rw [BitVec.toNat_add, BitVec.toNat_ofNat]
  omega

theorem toNat_remain_sub_chunk (r : BitVec 16) : (r - BitVec.ofNat 16 (chunkLen r)).toNat = r.toNat - chunkLen r := by
  have hle : chunkLen r ≤ r.toNat := Nat.min_le_left ..
  rw [BitVec.toNat_sub, BitVec.toNat_ofNat]
  omega

/-- After the last packet the stage ends and the block keeps EP0 IN (R199). -/
theorem Replying.ends {s : State} {d : Bool} {packet : List Byte} (h : Replying s d packet []) :
    ∃ t, pumpStep (sieIn true s.addr 0 s) = .next t ∧ Quiet t ∧ t.bds.ep0In.own = .sw := by
  have hrem : s.remain = 0 := BitVec.eq_of_toNat_eq h.length_rest.symm
  have hstage : (inTaken s d packet).stage = 2 := h.stage
  have hdone : ¬ (inTaken s d packet).remain ≠ 0 := not_not.2 hrem
  rw [h.inToken, h.quiet.pumpStep_after_in, execTrnEp0In_dataIn hstage, if_neg hdone]
  exact ⟨_, rfl, { h.quiet with uir := h.quiet.uir_after_in }, rfl⟩

/-- After any other packet the next chunk waits, under the other toggle (R198). -/
theorem Replying.advances {s : State} {d : Bool} {packet rest : List Byte} (h : Replying s d packet rest)
    (hrest : rest ≠ []) :
    ∃ t, pumpStep (sieIn true s.addr 0 s) = .next t ∧ Replying t (!d) (rest.take 64) (rest.drop 64) := by
  have hlen := h.length_rest
  have hpos : 0 < rest.length := List.length_pos_of_ne_nil hrest
  have hrem : s.remain ≠ 0 := by
    intro hzero
    rw [hlen, hzero] at hpos
    exact absurd hpos (by decide)
  obtain ⟨b, htable, hfits, hsource⟩ := h.source
  have htab := tlen_lt s.srcT
  have hsize := State.length_table htable
  have hn : chunkLen s.remain = (rest.take 64).length := by
    rw [List.length_take, hlen, Nat.min_comm]
    rfl
  have hpacket : (b.drop s.srcOff.toNat).take (chunkLen s.remain) = rest.take 64 := by
    rw [← hsource, List.take_take, Nat.min_comm]
    rfl
  have hstage : (inTaken s d packet).stage = 2 := h.stage
  have hmore : (inTaken s d packet).remain ≠ 0 := hrem
  have hread := read_written_packet s.mem s.draws (packet := rest.take 64) (List.length_take_le ..)
  rw [← hn, ← hpacket] at hread
  have hle : chunkLen s.remain ≤ s.remain.toNat := Nat.min_le_left ..
  have hoff := toNat_srcOff_add_chunk (off := s.srcOff) (r := s.remain) (by omega)
  have hleft := toNat_remain_sub_chunk s.remain
  have hchunk := dataInChunk_of_table (s := inTaken s d packet) rfl htable hfits
  rw [h.inToken, h.quiet.pumpStep_after_in, execTrnEp0In_dataIn hstage, if_pos hmore, hchunk]
  refine ⟨_, rfl, { h.quiet with uir := h.quiet.uir_after_in }, h.stage, rfl, h.stall, ?dts, ?read, b, htable,
    ?fits, ?tail⟩
  case dts => exact congrArg (!·) h.dts
  case read =>
    rw [← hpacket]
    exact hread
  case fits =>
    refine (congrArg₂ (· + ·) hoff hleft).trans_le ?_
    omega
  case tail =>
    refine (congrArg₂ (fun i n => (b.drop i).take n) hoff hleft).trans ?_
    rw [← hsource, ← take_drop_chunk, List.drop_drop]
    rfl

/-! ## The whole transfer -/

theorem controlRead_succ {s t : State} (h : pumpStep (sieIn true s.addr 0 s) = .next t) (n : Nat) :
    controlRead (n + 1) s = (sieIn true s.addr 0 s).event :: controlRead n t := by
  simp only [controlRead, h]

theorem controlRead_one (s : State) : controlRead 1 s = [(sieIn true s.addr 0 s).event] := by
  simp only [controlRead]
  split <;> rfl

theorem Replying.event {s : State} {d : Bool} {packet rest : List Byte} (h : Replying s d packet rest) :
    (sieIn true s.addr 0 s).event = some (.data d packet) := by
  rw [h.inToken]
  rfl

/-- The chunk law from any packet on: `b` goes out 64 bytes at a time, in one packet at least, and then NAK answers
(R207, R402). -/
theorem Replying.controlRead_eq {s : State} {d : Bool} {b : List Byte} (h : Replying s d (b.take 64) (b.drop 64))
    {n : Nat} (hn : max 1 ((b.length + 63) / 64) = n + 1) :
    controlRead (n + 2) s = chunkEvents (n + 1) d b ++ [some .nak] := by
  induction n generalizing s d b with
  | zero =>
    rw [List.drop_eq_nil_of_le (by omega)] at h
    obtain ⟨t, hstep, hquiet, hown⟩ := h.ends
    rw [controlRead_succ hstep, controlRead_one, h.event, hquiet.inToken_nak hown]
    rfl
  | succ n ih =>
    have hrest : b.drop 64 ≠ [] := by
      rw [Ne, List.drop_eq_nil_iff]
      omega
    obtain ⟨t, hstep, hnext⟩ := h.advances hrest
    have hcount : max 1 (((b.drop 64).length + 63) / 64) = n + 1 := by
      rw [List.length_drop]
      omega
    rw [controlRead_succ hstep, h.event, ih hnext hcount]
    rfl

/-- A device that begins to answer with `total` bytes of `b` replies with the first packet of them (R194, R197). -/
theorem answered_replying {s : State} {t : BitVec 3} {b : List Byte} (wLength : BitVec 16) (hquiet : Quiet s)
    (hstall : s.bds.ep0In.stall = false) (htable : s.table t = some b) :
    Replying (answered s t b wLength) (!s.bds.ep0In.dts)
      ((b.take (min b.length wLength.toNat)).take 64) ((b.take (min b.length wLength.toNat)).drop 64) := by
  have hsize := State.length_table htable
  have htab := tlen_lt t
  have htotal : min b.length wLength.toNat ≤ b.length := Nat.min_le_left ..
  unfold answered
  generalize min b.length wLength.toNat = total at htotal
  have hlen : (b.take (min total 64)).length = min total 64 := by
    rw [List.length_take]
    omega
  have hread := read_written_packet s.mem s.draws (packet := b.take (min total 64)) (by omega)
  rw [hlen] at hread
  have hoff : (BitVec.ofNat 8 (min total 64)).toNat = min total 64 := by
    rw [BitVec.toNat_ofNat]
    omega
  have hleft : (BitVec.ofNat 16 (total - min total 64)).toNat = total - min total 64 := by
    rw [BitVec.toNat_ofNat]
    omega
  refine ⟨{ hquiet with }, rfl, rfl, hstall, rfl, ?read, b, htable, ?fits, ?tail⟩
  case read =>
    rw [List.take_take, Nat.min_comm 64]
    exact hread
  case fits =>
    refine (congrArg₂ (· + ·) hoff hleft).trans_le ?_
    omega
  case tail => exact (congrArg₂ (fun i n => (b.drop i).take n) hoff hleft).trans (take_drop_chunk b total)

/-- Settles O60: the first packet waits (`answered_replying`), and `Replying.controlRead_eq` follows the rest. -/
theorem controlReadSendsTheResponse : Obligations.ControlReadSendsTheResponse := by
  intro s t b wLength _ hstall hmoden hvbus hen huir hlo hhi htable total k
  have hreply := answered_replying wLength ⟨hmoden, hvbus, hen, huir, hlo, hhi⟩ hstall htable
  have hlen : (b.take total).length = total := List.length_take_of_le (Nat.min_le_left ..)
  obtain ⟨n, hn⟩ : ∃ n, k = n + 1 := Nat.exists_eq_add_of_le' (Nat.le_max_left ..)
  rw [hn]
  exact hreply.controlRead_eq (by rw [← hn, show _ = total from hlen])

end Sys2Proof.Machine
end

section
/-! PROOFS. The standard requests that name a row of R135 (42_std_requests.md): what is outside the table is unhandled,
and each accepted request ends in the state its row gives, answered through a Data-In stage or accepted. -/

namespace Sys2Proof

/-! ## Packets outside the table (R231, R232) -/

/-- A packet that is not standard, or whose selector is of no row, decodes to no request. -/
theorem decodeSetup_eq_error {packet : BitVec 64}
    (h : setupType packet ≠ 0 ∨ setupSelector packet ∉ requestRows.map Prod.fst) :
    ∃ e, decodeSetup packet = .error e := by
  unfold decodeSetup
  split_ifs with htype
  · exact ⟨_, rfl⟩
  · have hnone : requestRows.find? (fun row => row.1 == setupSelector packet) = none := by
      rw [List.find?_eq_none]
      intro row hrow heq
      exact h.resolve_left htype (eq_of_beq heq ▸ List.mem_map_of_mem hrow)
    rw [hnone]
    exact ⟨_, rfl⟩

end Sys2Proof

namespace Sys2Proof.Machine

open Sys2Proof.Safety

theorem dispatchRequest_of_error {packet : BitVec 64} {e : DecodeError} (h : decodeSetup packet = .error e)
    (d : DevRec) : dispatchRequest packet d = .unh d := by
  rw [dispatchRequest, h]

/-- Settles O4: such a packet decodes to an error (`decodeSetup_eq_error`), and an error is dispatched to `UNH`. -/
theorem requestsOutsideTheTableAreUnhandled : Obligations.RequestsOutsideTheTableAreUnhandled := by
  intro packet d h
  obtain ⟨e, he⟩ := decodeSetup_eq_error h
  rw [dispatchRequest_of_error he]
  exact ⟨⟨e, he⟩, rfl, rfl, rfl⟩

/-! ## Requests answered from a table (R194, R197, R233) -/

/-- `answered` by the clamped length as the register `REMAIN` holds it when the data stage starts (R194, R197). -/
theorem answered_of_total {b : List Byte} {wLength total : BitVec 16} (h : total.toNat = min b.length wLength.toNat)
    (s : State) (tab : BitVec 3) :
    answered s tab b wLength = { s with
      handled := true, stage := 2, srcT := tab, srcOff := 0 + BitVec.ofNat 8 (chunkLen total)
      remain := total - BitVec.ofNat 16 (chunkLen total), mem := s.mem.write 0x40 (b.take (chunkLen total))
      bds := { s.bds with
        ep0Out := handedOver s.bds.ep0Out 64 0x00
        ep0In := handedOver s.bds.ep0In (BitVec.ofNat 8 (chunkLen total)) 0x40 } } := by
  have hremain : total - BitVec.ofNat 16 (chunkLen total) = BitVec.ofNat 16 (total.toNat - chunkLen total) := by
    rw [← toNat_remain_sub_chunk, BitVec.ofNat_toNat, BitVec.setWidth_eq]
  rw [hremain, zero_add, answered, ← h]
  rfl

/-- START_IN where the block owns both EP0 descriptors: the device answers the first `len` bytes of the table, clamped
to `wLength` (R194). -/
theorem startIn_eq_answered {s : State} {tab : BitVec 3} {b : List Byte} {len : BitVec 16} (hown : ep0Owned s)
    (htable : s.table tab = some b) (hlen : len.toNat ≤ b.length) (wLength : BitVec 16) :
    startIn tab len wLength { s with handled := true } = .next (answered s tab (b.take len.toNat) wLength) := by
  have htotal : (if len ≤ wLength then len else wLength).toNat = min (b.take len.toNat).length wLength.toNat := by
    rw [toNat_clampLength, List.length_take_of_le hlen]
  rw [answered_of_total htotal, startIn_eq_next]
  have hle : (if len ≤ wLength then len else wLength).toNat ≤ len.toNat :=
    toNat_clampLength len wLength ▸ Nat.min_le_left ..
  generalize (if len ≤ wLength then len else wLength) = total at hle
  have hchunk : chunkLen total ≤ len.toNat := (Nat.min_le_left ..).trans hle
  rw [List.take_take, Nat.min_eq_left hchunk]
  have hsent := dataInChunk_of_table (s := { s with handled := true, remain := total, srcT := tab, srcOff := 0 })
    hown.2 htable ((Nat.zero_add _).trans_le (hle.trans hlen))
  refine ⟨_, hsent, .symm (State.arm_ep0Out ?_)⟩
  exact hown.1

/-- A request answered by the descriptor of a table, whole when `wLength` admits it (R233). -/
theorem finishRequest_send {s : State} {tab : BitVec 3} {b : List Byte} (hown : ep0Owned s) (hdev : s.devstate ≤ 5)
    (htable : s.table tab = some b) (htab : tab ≠ 0) (wLength : BitVec 16) :
    finishRequest true wLength (.send tab (dlen tab) s.devRec) s = .next (answered s tab b wLength) := by
  have hlen := dlen_eq_length_table htable htab
  have hin := startIn_eq_answered hown htable hlen.le wLength
  rw [hlen, List.take_length] at hin
  exact (finishRequest_in (State.devOk_of_le hdev) rfl wLength).trans hin

/-- A request answered by the first `n` of two computed bytes, through `RESPBUF` (R230, R233). -/
theorem finishRequest_sendBytes {s : State} {n : BitVec 16} (hown : ep0Owned s) (hdev : s.devstate ≤ 5)
    (hn : n.toNat ≤ 2) (b0 b1 : Byte) (wLength : BitVec 16) :
    finishRequest true wLength (.sendBytes n b0 b1 s.devRec) s
      = .next (answered { s with respBuf0 := b0, respBuf1 := b1 } 0 ([b0, b1].take n.toNat) wLength) :=
  (finishRequest_in (State.devOk_of_le hdev) rfl wLength).trans
    (startIn_eq_answered (s := { s with respBuf0 := b0, respBuf1 := b1 }) hown rfl hn wLength)

/-! ## The endpoint operand (R253) -/

/-- The direction a bit names (R14). -/
def dirOf (dir : Fin 2) : Dir := if dir = 0 then .outward else .inward

theorem bdOf_dirOf_val (ep : Fin 3) (dir : Fin 2) : (bdOf ep (dirOf dir)).val = 2 * ep.val + dir.val := by
  revert ep dir
  decide

/-- `EPOPERAND` reads the endpoint and the direction bit back (R253). -/
theorem epOperand_ofNat (ep : Fin 3) (dir : Fin 2) :
    epOperand (BitVec.ofNat 16 (ep.val + 0x80 * dir.val)) = some (ep, dirOf dir) := by
  revert ep dir
  decide

/-- The halt of an endpoint as GET_STATUS reports it: bit 0, and 0 for EP0 (R44, R236). -/
theorem haltStatus_byte (s : State) (ep : Fin 3) (dir : Fin 2) :
    (BitVec.ofBool (s.halted (bdOf ep (dirOf dir)))).setWidth 8
      = (if ep ≠ 0 ∧ s.ephalt.getLsbD (2 * ep.val + dir.val) = true then 1 else 0 : Byte) := by
  rw [s.halted_bdOf, bdOf_dirOf_val]
  split_ifs with h
  · rw [decide_eq_true h]
    rfl
  · rw [decide_eq_false h]
    rfl

/-- A write to the halt of a bulk endpoint is not ignored (R44). -/
theorem writeHalt_bulk {ep : Fin 3} (hep : ep ≠ 0) (h : BitVec 6) (dir : Fin 2) (b : Bool) :
    writeHalt h (bdOf ep (dirOf dir)) b
      = if b then h ||| BitVec.twoPow 6 (2 * ep.val + dir.val)
        else h &&& ~~~(BitVec.twoPow 6 (2 * ep.val + dir.val)) := by
  have hbulk : ¬ 2 * ep.val + dir.val < 2 := by
    revert ep dir
    decide
  rw [writeHalt, bdOf_dirOf_val, if_neg hbulk]

/-- The status byte of the device: bit 0 is `SELFPWR`, bit 1 `RWU` (R234). -/
theorem deviceStatus_byte (selfpwr rwu : Bool) :
    0#6 ++ BitVec.ofBool rwu ++ BitVec.ofBool selfpwr
      = ((if selfpwr then 1 else 0) + (if rwu then 2 else 0) : Byte) := by
  cases selfpwr <;> cases rwu <;> rfl

/-- Settles O12: each request answers its bytes through `RESPBUF` (`finishRequest_sendBytes`); the status bytes are
`deviceStatus_byte` and `haltStatus_byte`. -/
theorem statusRequestsAnswer : Obligations.StatusRequestsAnswer := by
  intro s v x l hown hdev
  have hanswer {n : BitVec 16} (hn : n.toNat ≤ 2) (b0 : Byte) := finishRequest_sendBytes hown hdev hn b0 0 l
  refine ⟨?getStatusDev, hanswer (n := 2) (by decide) 0, fun ep dir => ?getStatusEp,
    hanswer (n := 1) (by decide) s.config, hanswer (n := 1) (by decide) 0⟩
  case getStatusDev =>
    rw [← deviceStatus_byte]
    exact hanswer (n := 2) (by decide) _
  case getStatusEp =>
    rw [← haltStatus_byte]
    dsimp only [exec, execGetStatusEp]
    rw [verdictGetStatusEp, epOperand_ofNat]
    exact hanswer (n := 2) (by decide) _

/-- Settles O13: each type and index names its table, which `finishRequest_send` answers. -/
theorem descriptorRequestsAnswer : Obligations.DescriptorRequestsAnswer := by
  intro s x l ix hown hdev
  have hanswer {tab : BitVec 3} {b : List Byte} (htable : s.table tab = some b) (htab : tab ≠ 0) :=
    finishRequest_send hown hdev htable htab l
  have htype : (0x01#8 ++ ix).extractLsb' 8 8 = 0x01#8 := BitVec.extractLsb'_append_eq_left
  refine ⟨?device, hanswer (tab := 2) rfl (by decide), hanswer (tab := 3) rfl (by decide),
    hanswer (tab := 4) rfl (by decide), hanswer (tab := 5) rfl (by decide)⟩
  dsimp only [exec, execGetDescriptor]
  rw [verdictGetDescriptor, htype]
  exact hanswer (tab := 1) rfl (by decide)

/-! ## Accepted requests (R195) -/

/-- A handled host-to-device request writes the record, does its action and begins a Data-Out stage (R191, R209). -/
theorem finishRequest_accept {s : State} (hown : ep0Owned s) (hdev : s.devstate ≤ 5) (d : DevRec) (act : Act)
    (wLength : BitVec 16) :
    finishRequest false wLength (.accept d act) s = .next (accepted (runAct (s.withRec d) act)) := by
  have hacc : ep0Owned (acceptRequest (.accept d act) s) := by
    simpa only [ep0Owned, acceptRequest_ep0Out, acceptRequest_ep0In] using hown
  rw [finishRequest_out (State.devOk_of_le hdev) rfl, startOut_of_owned hacc]
  rfl

/-- The halt feature of a bulk endpoint is accepted (R250, R251). -/
theorem verdictHalt_bulk {ep : Fin 3} (hep : ep ≠ 0) (dir : Fin 2) (b : Bool) (d : DevRec) :
    verdictHalt 0 (BitVec.ofNat 16 (ep.val + 0x80 * dir.val)) b d
      = .accept { d with ephalt := writeHalt d.ephalt (bdOf ep (dirOf dir)) b } .none := by
  rw [verdictHalt, if_neg (not_not.2 rfl), epOperand_ofNat]
  exact if_neg hep

/-- Settles O14: each verdict accepts one write of the record (`finishRequest_accept`); the halts by
`verdictHalt_bulk` and `writeHalt_bulk`. -/
theorem featureAndInterfaceRequestsAccepted : Obligations.FeatureAndInterfaceRequestsAccepted := by
  intro s x l hown hdev
  have haccept (d : DevRec) := finishRequest_accept hown hdev d .none l
  refine ⟨haccept { s.devRec with rwu := true }, haccept { s.devRec with rwu := false },
    fun ep dir hep => ⟨?setHalt, ?clearHalt⟩, haccept s.devRec⟩
  case setHalt =>
    dsimp only [exec, execSetFeatureEp]
    rw [verdictSetFeatureEp, verdictHalt_bulk hep, writeHalt_bulk hep]
    exact haccept _
  case clearHalt =>
    dsimp only [exec, execClearFeatureEp]
    rw [verdictClearFeatureEp, verdictHalt_bulk hep, writeHalt_bulk hep]
    exact haccept _

/-- Settles O15: below Configured the address is only recorded (`finishRequest_accept`); the end of the Status stage
applies it by the second clause of `ep0InByStage`. -/
theorem setAddressIsDeferred : Obligations.SetAddressIsDeferred := by
  intro s
  refine ⟨fun v x l hown hdev hv => ?recorded, fun hstage hpend => ?applied⟩
  case recorded =>
    have hconf : ¬ s.devRec.devstate = devConfigured := BitVec.ne_of_lt hdev
    dsimp only [exec, execSetAddress]
    rw [verdictSetAddress, if_neg (Nat.not_lt.2 hv), if_neg hconf]
    exact finishRequest_accept hown (BitVec.le_of_lt hdev) _ _ l
  case applied =>
    obtain ⟨-, hdataOut, -⟩ := ep0InByStage s
    rw [hdataOut hstage, if_pos hpend]

/-- Configuration 0 leads back to Address (R262). -/
theorem verdictSetConfiguration_of_zero {v : BitVec 16} (h : v.extractLsb' 0 8 = 0#8) (d : DevRec) :
    verdictSetConfiguration v d = .accept { d with config := 0, devstate := devAddress } .cfgOff :=
  if_pos h

/-- Any other configuration leads to Configured (R263). -/
theorem verdictSetConfiguration_of_ne_zero {v : BitVec 16} (h : v.extractLsb' 0 8 ≠ 0#8) (d : DevRec) :
    verdictSetConfiguration v d
      = .accept { d with config := v.extractLsb' 0 8, devstate := devConfigured } .cfgOn :=
  if_neg h

/-- CFG_OFF, field by field (R262). -/
theorem cfgOff_eq (s : State) :
    cfgOff s = { s with
      epen := s.epen &&& 0b001, ephalt := 0
      bds := { s.bds with
        ep1Out := returned 0x80 true, ep1In := returned 0x88 true
        ep2Out := returned 0x90 true, ep2In := returned 0x98 true } } := rfl

/-- CFG_ON, field by field: the ARM of a reclaimed OUT descriptor leaves DATA0 (R264). -/
theorem cfgOn_eq (s : State) :
    cfgOn s = { s with
      epen := s.epen ||| 0b110, ephalt := 0
      bds := { s.bds with
        ep1Out := { own := .hw, dts := false, stall := false, count := 7, addr := 0x80 }
        ep1In := returned 0x88 true
        ep2Out := { own := .hw, dts := false, stall := false, count := 1, addr := 0x90 }
        ep2In := returned 0x98 true } } := by
  have hepen : ∀ e : BitVec 3, epenBulkOn (epenBulkOff e) = e ||| 0b110 := by decide
  rw [cfgOn, hepen]
  rfl

/-- Settles O16: the record is written and the bulk endpoints set up (`finishRequest_accept`), as `cfgOff_eq` and
`cfgOn_eq` say. -/
theorem setConfigurationReinitialises : Obligations.SetConfigurationReinitialises := by
  intro s v x l hown hdev
  dsimp only [exec, execSetConfiguration]
  by_cases hzero : v.extractLsb' 0 8 = 0#8
  · rw [verdictSetConfiguration_of_zero hzero, if_pos hzero, finishRequest_accept hown hdev, runAct, cfgOff_eq]
    rfl
  · rw [verdictSetConfiguration_of_ne_zero hzero, if_neg hzero, finishRequest_accept hown hdev, runAct, cfgOn_eq]
    rfl

end Sys2Proof.Machine
end

section
/-! PROOFS. The frame of the thirteen requests (42_std_requests.md section 9, R270): what each row's verdict may write,
what accepting it writes, and that the data stage after it writes none of those registers. -/

namespace Sys2Proof.Machine

/-! ## What a verdict may write, by the row (R270) -/

/-- The rows that answer from `RESPBUF` (R234 to R236, R265, R266). -/
def respBufRows : List (BitVec 16) := [0x0080, 0x0081, 0x0082, 0x0880, 0x0A81]

/-- What the verdict of a row may write of the record `d` (R270). -/
structure VerdictWrites (row : BitVec 16) (d : DevRec) (v : Verdict) : Prop where
  config : row ≠ 0x0900#16 → v.act = .none ∧ v.devRec.devstate = d.devstate ∧ v.devRec.config = d.config
  ephalt : row ≠ 0x0900#16 → row ≠ 0x0102#16 → row ≠ 0x0302#16 → v.devRec.ephalt = d.ephalt
  rwu : row ≠ 0x0100#16 → row ≠ 0x0300#16 → v.devRec.rwu = d.rwu
  address : row ≠ 0x0500#16 → v.devRec.paddr = d.paddr ∧ v.devRec.apend = d.apend
  respBuf : row ∉ respBufRows → v.rb = none

section Rows

variable {row : BitVec 16} {d : DevRec}

/-- A verdict that leaves the record and has no action. -/
theorem VerdictWrites.of_same {v : Verdict} (hrec : v.devRec = d) (hact : v.act = .none)
    (hrb : row ∉ respBufRows → v.rb = none) : VerdictWrites row d v := by
  subst hrec
  exact ⟨fun _ => ⟨hact, rfl, rfl⟩, fun _ _ _ => rfl, fun _ _ => rfl, fun _ => ⟨rfl, rfl⟩, hrb⟩

theorem VerdictWrites.unh : VerdictWrites row d (.unh d) := .of_same rfl rfl fun _ => rfl

theorem VerdictWrites.send (tab : BitVec 3) (len : BitVec 16) : VerdictWrites row d (.send tab len d) :=
  .of_same rfl rfl fun _ => rfl

theorem VerdictWrites.sendBytes (h : row ∈ respBufRows) (n : BitVec 16) (b0 b1 : Byte) :
    VerdictWrites row d (.sendBytes n b0 b1 d) :=
  .of_same rfl rfl fun hnot => absurd h hnot

/-- A field check: a verdict that passes it, or `UNH` (R230). -/
theorem VerdictWrites.ite_unh {c : Prop} [Decidable c] {v : Verdict} (h : VerdictWrites row d v) :
    VerdictWrites row d (if c then .unh d else v) := by
  split
  · exact .unh
  · exact h

/-- The device feature writes `RWU` (R240, R241). -/
theorem VerdictWrites.deviceFeature (h : row = 0x0100#16 ∨ row = 0x0300#16) (b : Bool) :
    VerdictWrites row d (.accept { d with rwu := b } .none) where
  config _ := ⟨rfl, rfl, rfl⟩
  ephalt _ _ _ := rfl
  rwu h1 h2 := absurd h (not_or.2 ⟨h1, h2⟩)
  address _ := ⟨rfl, rfl⟩
  respBuf _ := rfl

/-- The halt feature writes `EPHALT` (R250, R251). -/
theorem VerdictWrites.haltFeature (h : row = 0x0102#16 ∨ row = 0x0302#16) (wValue wIndex : BitVec 16) (b : Bool) :
    VerdictWrites row d (verdictHalt wValue wIndex b d) := by
  obtain ⟨hact, hrb, hrec⟩ := verdictHalt_writes wValue wIndex b d
  refine ⟨fun _ => ⟨hact, ?_, ?_⟩, fun _ hclear hset => absurd h (not_or.2 ⟨hclear, hset⟩), fun _ _ => ?_,
    fun _ => ⟨?_, ?_⟩, fun _ => hrb⟩ <;> rw [hrec]

/-- SET_ADDRESS writes the pending address (R255). -/
theorem VerdictWrites.pendingAddress (h : row = 0x0500#16) (a : BitVec 7) :
    VerdictWrites row d (.accept { d with paddr := a, apend := true } .none) where
  config _ := ⟨rfl, rfl, rfl⟩
  ephalt _ _ _ := rfl
  rwu _ _ := rfl
  address hne := absurd h hne
  respBuf _ := rfl

/-- SET_CONFIGURATION writes `CONFIG` and `DEVSTATE`, and acts on the bulk endpoints (R262, R263). -/
theorem VerdictWrites.configuration (h : row = 0x0900#16) (c : Byte) (dev : BitVec 3) (act : Act) :
    VerdictWrites row d (.accept { d with config := c, devstate := dev } act) where
  config hne := absurd h hne
  ephalt hne := absurd h hne
  rwu _ _ := rfl
  address _ := ⟨rfl, rfl⟩
  respBuf _ := rfl

end Rows

/-- Every request writes at most what R270 gives its row. -/
theorem requestVerdict_writes {i : Instr} {packet : BitVec 64} (h : encode i = .setup packet) (d : DevRec) :
    VerdictWrites (setupSelector packet) d (requestVerdict i d) := by
  cases i <;> simp only [encode, PortWord.setup.injEq, reduceCtorEq] at h <;> subst h <;>
    rw [setupSelector_setupPacket]
  case getStatusDev => exact .sendBytes (by decide) _ _ _
  case getStatusIf => exact .ite_unh (.sendBytes (by decide) _ _ _)
  case getStatusEp wIndex _ =>
    simp only [requestVerdict, verdictGetStatusEp]
    split
    · exact .unh
    · exact .sendBytes (by decide) _ _ _
  case clearFeatureDev => exact .ite_unh (.deviceFeature (.inl rfl) _)
  case setFeatureDev => exact .ite_unh (.deviceFeature (.inr rfl) _)
  case clearFeatureEp => exact .haltFeature (.inl rfl) _ _ _
  case setFeatureEp => exact .haltFeature (.inr rfl) _ _ _
  case setAddress => exact .ite_unh (.ite_unh (.pendingAddress rfl _))
  case getDescriptor =>
    simp only [requestVerdict, verdictGetDescriptor]
    split_ifs
    · exact .send _ _
    · exact .send _ _
    · exact .send _ _
    · exact .unh
  case getConfiguration => exact .sendBytes (by decide) _ _ _
  case setConfiguration =>
    simp only [requestVerdict, verdictSetConfiguration]
    split
    · exact .configuration rfl _ _ _
    · exact .configuration rfl _ _ _
  case getInterface => exact .ite_unh (.sendBytes (by decide) _ _ _)
  case setInterface => exact .ite_unh (.of_same rfl rfl fun _ => rfl)

/-! ## What a request writes -/

/-- `s` with every field from `t` that a request may write. -/
def requestWrites (s t : State) : State :=
  { s with
    bds := t.bds, epen := t.epen, ephalt := t.ephalt, stage := t.stage, remain := t.remain, srcT := t.srcT
    srcOff := t.srcOff, handled := t.handled, respBuf0 := t.respBuf0, respBuf1 := t.respBuf1
    devstate := t.devstate, rwu := t.rwu, config := t.config, paddr := t.paddr, apend := t.apend, mem := t.mem }

/-- What the requests of R270 leave alone from `s` to `t`, by the row. -/
structure RowFrame (row : BitVec 16) (s t : State) : Prop where
  writes : t = requestWrites s t
  config : row ≠ 0x0900#16 → t.devstate = s.devstate ∧ t.config = s.config ∧ t.epen = s.epen
    ∧ t.bds.ep1Out = s.bds.ep1Out ∧ t.bds.ep1In = s.bds.ep1In
    ∧ t.bds.ep2Out = s.bds.ep2Out ∧ t.bds.ep2In = s.bds.ep2In
  ephalt : row ≠ 0x0900#16 → row ≠ 0x0102#16 → row ≠ 0x0302#16 → t.ephalt = s.ephalt
  rwu : row ≠ 0x0100#16 → row ≠ 0x0300#16 → t.rwu = s.rwu
  address : row ≠ 0x0500#16 → t.paddr = s.paddr ∧ t.apend = s.apend
  respBuf : row ∉ respBufRows → t.respBuf0 = s.respBuf0 ∧ t.respBuf1 = s.respBuf1

theorem requestWrites_trans {s u t : State} (hu : u = requestWrites s u) (ht : t = requestWrites u t) :
    t = requestWrites s t := by
  calc t = requestWrites u t := ht
    _ = requestWrites (requestWrites s u) t := congrArg (requestWrites · t) hu
    _ = requestWrites s t := rfl

theorem unhandled_rowFrame (row : BitVec 16) (s : State) : RowFrame row s (unhandled { s with handled := false }) where
  writes := rfl
  config _ := ⟨rfl, rfl, rfl, rfl, rfl, rfl, rfl⟩
  ephalt _ _ _ := rfl
  rwu _ _ := rfl
  address _ := ⟨rfl, rfl⟩
  respBuf _ := ⟨rfl, rfl⟩

/-! ## Accepting a request (R209) -/

theorem acceptRequest_writes (v : Verdict) (s : State) : acceptRequest v s = requestWrites s (acceptRequest v s) := by
  unfold acceptRequest
  cases v.act <;> cases v.rb <;> rfl

/-- Without an action, accepting a request writes the record and `RESPBUF` alone. -/
theorem acceptRequest_of_no_act {v : Verdict} (h : v.act = .none) (s : State) :
    acceptRequest v s = { (s.withRec v.devRec).fillRespBuf v.rb with handled := true } := by
  rw [acceptRequest, h, runAct]

/-- No action writes `RWU`, `PADDR` or `APEND`: they are the verdict's. -/
theorem acceptRequest_record (v : Verdict) (s : State) :
    (acceptRequest v s).rwu = v.devRec.rwu ∧ (acceptRequest v s).paddr = v.devRec.paddr
      ∧ (acceptRequest v s).apend = v.devRec.apend := by
  unfold acceptRequest
  cases v.act <;> simp [runAct, cfgOff, cfgOn]

theorem acceptRequest_respBuf {v : Verdict} (h : v.rb = none) (s : State) :
    (acceptRequest v s).respBuf0 = s.respBuf0 ∧ (acceptRequest v s).respBuf1 = s.respBuf1 := by
  unfold acceptRequest
  rw [h]
  cases v.act <;> exact ⟨rfl, rfl⟩

theorem acceptRequest_source (v : Verdict) (s : State) :
    (acceptRequest v s).remain = s.remain ∧ (acceptRequest v s).srcT = s.srcT
      ∧ (acceptRequest v s).srcOff = s.srcOff := by
  unfold acceptRequest
  cases v.act <;> simp [runAct, cfgOff, cfgOn]

theorem acceptRequest_rowFrame {row : BitVec 16} {s : State} {v : Verdict} (h : VerdictWrites row s.devRec v) :
    RowFrame row s (acceptRequest v s) := by
  obtain ⟨hrwu, hpaddr, hapend⟩ := acceptRequest_record v s
  refine ⟨acceptRequest_writes v s, fun hrow => ?config, fun hrow hclear hset => ?ephalt,
    fun hclear hset => hrwu.trans (h.rwu hclear hset), fun hrow => ?address,
    fun hrow => acceptRequest_respBuf (h.respBuf hrow) s⟩
  case config =>
    obtain ⟨hact, hdev, hconfig⟩ := h.config hrow
    simp [acceptRequest_of_no_act hact, hdev, hconfig, State.devRec]
  case ephalt =>
    obtain ⟨hact, -⟩ := h.config hrow
    simp [acceptRequest_of_no_act hact, h.ephalt hrow hclear hset, State.devRec]
  case address =>
    obtain ⟨hp, ha⟩ := h.address hrow
    exact ⟨hpaddr.trans hp, hapend.trans ha⟩

/-! ## The data stage after it -/

theorem RowFrame.startOut {row : BitVec 16} {s u : State} (h : RowFrame row s u) : RowFrame row s (startOut u) :=
  { h with writes := requestWrites_trans h.writes rfl }

theorem RowFrame.startIn {row : BitVec 16} {s u t : State} {tab : BitVec 3} {len wLength : BitVec 16}
    (h : RowFrame row s u) (hin : startIn tab len wLength u = .next t) : RowFrame row s t := by
  rw [startIn_eq_next] at hin
  obtain ⟨s1, hchunk, rfl⟩ := hin
  rw [dataInChunk_eq_next] at hchunk
  obtain ⟨b, -, rfl⟩ := hchunk
  exact { h with writes := requestWrites_trans h.writes rfl }

/-- A request as a whole keeps the frame of its row, however it ends. -/
theorem finishRequest_rowFrame {row wLength : BitVec 16} {toHost : Bool} {v : Verdict} {s t : State}
    (hv : VerdictWrites row s.devRec v) (h : finishRequest toHost wLength v s = .next t) : RowFrame row s t := by
  rcases finishRequest_eq_next h with ⟨-, rfl⟩ | ⟨-, -, rfl⟩ | ⟨-, -, hin⟩
  · exact unhandled_rowFrame row s
  · exact (acceptRequest_rowFrame hv).startOut
  · exact (acceptRequest_rowFrame hv).startIn hin

/-- A request that starts no data stage to the host leaves its source. -/
theorem finishRequest_source {toHost : Bool} {wLength : BitVec 16} {v : Verdict} {s t : State}
    (h : finishRequest toHost wLength v s = .next t) (hno : v.handled = false ∨ toHost = false) :
    t.remain = s.remain ∧ t.srcT = s.srcT ∧ t.srcOff = s.srcOff := by
  rcases finishRequest_eq_next h with ⟨-, rfl⟩ | ⟨-, -, rfl⟩ | ⟨hhandled, hdir, -⟩
  · exact ⟨rfl, rfl, rfl⟩
  · exact acceptRequest_source v s
  · simp [hhandled, hdir] at hno

/-- Settles O18: the registers and descriptors by `RowFrame`, the source by `finishRequest_source`, the bytes by
`finishRequest_stores`. -/
theorem requestFrame : Obligations.RequestFrame := by
  intro i packet s t henc h
  rw [exec_request henc] at h
  obtain ⟨hwrites, hconfig, hephalt, hrwu, haddress, hrespBuf⟩ :=
    finishRequest_rowFrame (requestVerdict_writes henc s.devRec) h
  exact ⟨hwrites, hconfig, hephalt, hrwu, haddress, hrespBuf, finishRequest_source h, finishRequest_stores h⟩

end Sys2Proof.Machine
end

section
/-! PROOFS. The branches of the bus events and the TRN branch (43_device_state_and_pump.md sections 2 to 4): each clears
its own flag, a bus reset re-initialises, and TRN runs the row its latch decodes to. -/

namespace Sys2Proof.Machine

open Sys2Proof.Safety

/-! ## The bus events (R285, R287 to R290) -/

/-- Clearing a flag keeps the other bits of `UIR`. -/
theorem State.clearUir_eq (s : State) {k : Nat} {m : Byte} (h : ~~~(bitMask k) = m) :
    s.clearUir k = { s with uir := s.uir &&& m } := by
  subst h
  rfl

/-- Settles O28: each meaning clears its flag, with the mask `State.clearUir_eq` gives it. -/
theorem busEventsClearTheirFlag : Obligations.BusEventsClearTheirFlag := by
  intro s
  have hclear (u : State) {k : Nat} {m : Byte} (h : ~~~(bitMask k) = m) :
      (.next (u.clearUir k) : Result) = .next { u with uir := u.uir &&& m } := congrArg _ (u.clearUir_eq h)
  exact ⟨hclear { s with susp := false } (k := uirACTV) (by decide),
    hclear { s with susp := true } (k := uirIDLE) (by decide), hclear s (k := uirSOF) (by decide),
    hclear s (k := uirSTALL) (by decide), hclear s (k := uirUERR) (by decide)⟩

/-! ## Bus reset (R286, R391) -/

/-- The bus-reset handler, field by field: the ARM of the reclaimed EP0 OUT leaves DATA1. -/
theorem busResetHandler_eq (s : State) :
    busResetHandler s = { cleared s with
      devstate := 3, uir := s.uir &&& 0xF7, epen := 0b001
      bds := { (cleared s).bds with
        ep0Out := { own := .hw, dts := true, stall := false, count := 64, addr := 0x00 } } } := by
  rw [busResetHandler, State.clearUir_eq _ not_bitMask_uirTRN]
  rfl

/-- Settles O29: the handler by `busResetHandler_eq`; URST then clears its own flag beside `UIR.TRN`. -/
theorem busResetReinitialises : Obligations.BusResetReinitialises := by
  intro s hdev
  have hclear (u : State) : u.clearUir uirURST = { u with uir := u.uir &&& 0xFE } := u.clearUir_eq (by decide)
  refine (withDevState_ok (State.devOk_of_le hdev) _).trans (congrArg _ ?_)
  by_cases hdet : s.devstate = 0
  · rw [if_pos hdet, if_neg (not_not.2 hdet), hclear]
  · have hmasks : s.uir &&& 0xF7 &&& 0xFE = s.uir &&& 0xF6 := BitVec.and_assoc ..
    rw [if_neg hdet, if_pos hdet, hclear, busResetHandler_eq, ← hmasks]

/-! ## TRN (R291, R292, R294) -/

/-- The handler TRN routes to is the row the latch decodes to. -/
theorem routeTransaction_of_ok {s : State} {i : Instr} (h : decodeUstat s.ustat = .ok i) :
    routeTransaction s = exec i s := by
  have hrow : i ∈ ustatRows.map Prod.snd := List.mem_map_of_mem (decodeUstat_eq_ok h)
  simp only [ustatRows, List.map, List.mem_cons, List.not_mem_nil, or_false] at hrow
  unfold routeTransaction
  rcases hrow with rfl | rfl | rfl | rfl | rfl | rfl | rfl <;> rw [h] <;> rfl

theorem routeTransaction_of_error {s : State} {e : DecodeError} (h : decodeUstat s.ustat = .error e) :
    routeTransaction s = .next s := by
  rw [routeTransaction, h]

/-- TRN in a device state that is none of the reserved two. -/
theorem execTrn_of_devstate {s : State} (h : s.devstate ≤ 5) :
    execTrn s = (if s.atLeastDefault then routeTransaction s else .next s).andThen
      fun t => .next { t with uir := t.uir &&& 0xF7 } := by
  rw [execTrn, withDevState_ok (State.devOk_of_le h)]
  exact congrArg _ (funext fun t => congrArg _ (t.clearUir_eq not_bitMask_uirTRN))

/-- Settles O9: from Default on by `routeTransaction_of_ok` and `routeTransaction_of_error`; below it nothing is
routed. -/
theorem trnRunsTheLatchedRow : Obligations.TrnRunsTheLatchedRow := by
  intro s hdev
  refine ⟨fun hdef i hdec => ?row, fun hlow => ?below, fun e hdec => ?noRow⟩ <;>
    refine (execTrn_of_devstate hdev).trans ?_
  case row => rw [if_pos ((s.atLeastDefault_iff).2 hdef), routeTransaction_of_ok hdec]
  case below => rw [if_neg fun hdef => BitVec.not_le.2 hlow ((s.atLeastDefault_iff).1 hdef), Result.andThen]
  case noRow => rw [routeTransaction_of_error hdec, ite_self, Result.andThen]

/-! ## Bulk completions (R293) -/

/-- The latch value of a transaction decodes to it, whatever bit 7 holds (R112). -/
theorem decodeUstat_of_encode {i : Instr} {u : Byte} (hwf : i.wf = true) (h : encode i = .ustat (u &&& 0x7F)) :
    decodeUstat u = .ok i := by
  have hdec := decodeOfEncode i hwf
  rw [h] at hdec
  have hmask : decodeUstat (u &&& 0x7F) = decodeUstat u := by simp [decodeUstat, BitVec.and_assoc]
  exact hmask.symm.trans hdec

/-- Settles O32: the rows by their meaning; under TRN by the clauses of `trnRunsTheLatchedRow`, the flag cleared
twice. -/
theorem bulkTransactionsOnlyClearTrn : Obligations.BulkTransactionsOnlyClearTrn := by
  intro s i hi
  have hrow : exec i s = .next { s with uir := s.uir &&& 0xF7 } := by
    rw [← State.clearUir_eq s not_bitMask_uirTRN]
    rcases hi with rfl | rfl | rfl | rfl <;> rfl
  have hwf : i.wf = true := by rcases hi with rfl | rfl | rfl | rfl <;> rfl
  refine ⟨hrow, fun henc hdev => ?_⟩
  obtain ⟨hdefault, hbelow, -⟩ := trnRunsTheLatchedRow s hdev
  by_cases hdef : 3 ≤ s.devstate
  · have htwice : s.uir &&& 0xF7 &&& 0xF7 = s.uir &&& 0xF7 := BitVec.and_assoc ..
    rw [hdefault hdef i (decodeUstat_of_encode hwf henc), hrow, Result.andThen, htwice]
  · exact hbelow (BitVec.not_le.1 hdef)

end Sys2Proof.Machine
end

section
/-! PROOFS. The pump step as a whole (43_device_state_and_pump.md section 1): which branch it runs first, that it leaves
no flag set, and the two edges of the attach. -/

namespace Sys2Proof.Machine

/-! ## The first branch taken (R280, R281) -/

section

variable {row : BitVec 16 × BitVec 16 × Instr} {before rows : List (BitVec 16 × BitVec 16 × Instr)} {s t : State}

theorem runBranches_cons_taken (h : s.view &&& row.1 = row.2.1) (ht : exec row.2.2 s = .next t) :
    runBranches (row :: rows) s = runBranches rows t := by
  rw [runBranches, if_pos h, ht, Result.andThen]

theorem runBranches_cons_not_taken (h : s.view &&& row.1 ≠ row.2.1) :
    runBranches (row :: rows) s = runBranches rows s := by
  rw [runBranches, if_neg h, Result.andThen]

/-- Branches whose tests fail are passed over. -/
theorem runBranches_append_of_not_taken (h : ∀ row ∈ before, s.view &&& row.1 ≠ row.2.1) :
    runBranches (before ++ rows) s = runBranches rows s := by
  induction before with
  | nil => rfl
  | cons row before ih =>
    rw [List.cons_append, runBranches_cons_not_taken (h row List.mem_cons_self)]
    exact ih fun r hr => h r (List.mem_cons_of_mem _ hr)

/-- With no test holding, nothing changes (R280). -/
theorem runBranches_of_none_taken (h : ∀ row ∈ rows, s.view &&& row.1 ≠ row.2.1) : runBranches rows s = .next s := by
  have hskip := runBranches_append_of_not_taken (rows := []) h
  rwa [List.append_nil] at hskip

end

/-- The branch a view decodes to is the first whose test holds. -/
theorem decodePumpin_eq_ok {v : BitVec 16} {i : Instr} (h : decodePumpin v = .ok i) :
    ∃ before m x after, branchRows = before ++ (m, x, i) :: after ∧ v &&& m = x
      ∧ ∀ row ∈ before, v &&& row.1 ≠ row.2.1 := by
  unfold decodePumpin at h
  split at h
  · rename_i row hrow
    cases h
    obtain ⟨htest, before, after, heq, hfail⟩ := List.find?_eq_some_iff_append.1 hrow
    exact ⟨before, row.1, row.2.1, after, heq, eq_of_beq htest, fun r hr => by simpa using hfail r hr⟩
  · cases h

/-- A view that decodes to nothing fails every test. -/
theorem decodePumpin_eq_error {v : BitVec 16} {e : DecodeError} (h : decodePumpin v = .error e) :
    ∀ row ∈ branchRows, v &&& row.1 ≠ row.2.1 := by
  unfold decodePumpin at h
  split at h
  · cases h
  · rename_i hnone
    simpa using hnone

/-- Settles O8: the branches before the decoded one are passed over, or all of them. -/
theorem pumpRunsTheDecodedBranch : Obligations.PumpRunsTheDecodedBranch := by
  refine ⟨fun s i hdev hdec => ?decoded, fun s e hdev hdec => ?nothing⟩
  case decoded =>
    obtain ⟨before, m, x, after, hrows, htest, hfail⟩ := decodePumpin_eq_ok hdec
    refine ⟨before, m, x, after, hrows, htest, hfail, ?_⟩
    rw [pumpStep, withDevState_ok hdev, hrows, runBranches_append_of_not_taken hfail, runBranches, if_pos htest]
  case nothing =>
    rw [pumpStep, withDevState_ok hdev, runBranches_of_none_taken (decodePumpin_eq_error hdec)]

/-! ## Every flag is cleared (R40, R281) -/

/-- What one branch of a list establishes, whether it is taken or not, and no branch of the list undoes, holds at the
end. -/
theorem runBranches_establishes {P : State → Prop} {row : BitVec 16 × BitVec 16 × Instr}
    {rows : List (BitVec 16 × BitVec 16 × Instr)} (hmem : row ∈ rows)
    (hskip : ∀ s, s.view &&& row.1 ≠ row.2.1 → P s)
    (htake : ∀ s t, exec row.2.2 s = .next t → P t)
    (hkeep : ∀ r ∈ rows, ∀ s t, P s → exec r.2.2 s = .next t → P t)
    {s t : State} (h : runBranches rows s = .next t) : P t := by
  induction rows generalizing s with
  | nil => cases hmem
  | cons r rows ih =>
    rw [runBranches, Result.andThen_eq_next] at h
    obtain ⟨s1, h1, h⟩ := h
    have hkeep' : ∀ r ∈ rows, ∀ s t, P s → exec r.2.2 s = .next t → P t := fun r hr =>
      hkeep r (List.mem_cons_of_mem _ hr)
    rcases List.mem_cons.1 hmem with rfl | hmem
    · refine runBranches_invariant (fun r hr u v hu _ => hkeep' r hr u v hu) ?_ h
      split at h1
      · exact htake s s1 h1
      · rename_i hfail
        cases h1
        exact hskip s hfail
    · exact ih hmem hkeep' h

/-- Each flag has a branch that tests it, and that branch clears it. -/
theorem flag_branch_clears {k : Nat} (hk : k < 7) :
    ∃ i, (BitVec.twoPow 16 k, BitVec.twoPow 16 k, i) ∈ branchRows
      ∧ ∀ s t, exec i s = .next t → t.uirBit k = false := by
  have hcleared {k : Nat} {f : State → State} {i : Instr} (hi : ∀ s, exec i s = .next ((f s).clearUir k)) :
      ∀ s t, exec i s = .next t → t.uirBit k = false := by
    intro s t h
    rw [hi] at h
    cases h
    exact uirBit_clearUir_same _ k
  match k, hk with
  | 0, _ =>
    refine ⟨.urst, by decide, fun s t h => ?_⟩
    rcases execUrst_eq_next h with ⟨-, rfl⟩ | ⟨-, rfl⟩ <;> exact uirBit_clearUir_same _ 0
  | 1, _ => exact ⟨.uerr, by decide, hcleared fun _ => rfl⟩
  | 2, _ => exact ⟨.actv, by decide, hcleared fun _ => rfl⟩
  | 3, _ =>
    refine ⟨.trn, by decide, fun s t h => ?_⟩
    obtain ⟨s1, rfl, -⟩ := execTrn_eq_next h
    exact uirBit_clearUir_same s1 uirTRN
  | 4, _ => exact ⟨.idle, by decide, hcleared fun _ => rfl⟩
  | 5, _ => exact ⟨.stall, by decide, hcleared fun _ => rfl⟩
  | 6, _ => exact ⟨.sof, by decide, hcleared fun _ => rfl⟩

/-- No instruction sets a flag. -/
theorem exec_uirBit_false {i : Instr} {s t : State} {k : Nat} (h : exec i s = .next t) (hs : s.uirBit k = false) :
    t.uirBit k = false := by
  have hlow : (t.uir &&& ~~~s.uir).getLsbD k = false := by
    rw [show t.uir &&& ~~~s.uir = 0 from (exec_guarded h).uir_lowered]
    exact BitVec.getLsbD_zero
  by_cases hk : k < 8
  · rw [BitVec.getLsbD_and, BitVec.getLsbD_not, show s.uir.getLsbD k = false from hs, decide_eq_true hk] at hlow
    rwa [Bool.not_false, Bool.and_true, Bool.and_true] at hlow
  · exact BitVec.getLsbD_of_ge _ _ (by omega)

/-- `UIR[6:0]` bit by bit. -/
theorem flags_eq_zero_iff (s : State) : s.uir &&& 0x7F = 0 ↔ ∀ k < 7, s.uirBit k = false := by
  have hmask : ∀ k : Fin 8, (0x7F : Byte).getLsbD k.val = decide (k.val < 7) := by decide
  constructor
  · intro h k hk
    have hbit : (s.uir &&& 0x7F).getLsbD k = false := by
      rw [h]
      exact BitVec.getLsbD_zero
    rw [BitVec.getLsbD_and, hmask ⟨k, by omega⟩, decide_eq_true hk, Bool.and_true] at hbit
    exact hbit
  · intro h
    apply BitVec.eq_of_getLsbD_eq
    intro k hk
    rw [BitVec.getLsbD_and, hmask ⟨k, hk⟩, show (0 : Byte).getLsbD k = false from BitVec.getLsbD_zero]
    by_cases h7 : k < 7
    · rw [show s.uir.getLsbD k = false from h k h7, Bool.false_and]
    · rw [decide_eq_false h7, Bool.and_false]

/-- Settles O31: flag by flag, its own branch clears it (`flag_branch_clears`) and no other sets it
(`exec_uirBit_false`). -/
theorem pumpStepClearsEveryFlag : Obligations.PumpStepClearsEveryFlag := by
  intro s t h
  rw [pumpStep, withDevState_eq_next] at h
  obtain ⟨-, h⟩ := h
  refine (flags_eq_zero_iff t).2 fun k hk => ?_
  obtain ⟨i, hmem, hclears⟩ := flag_branch_clears hk
  refine runBranches_establishes (P := fun u => u.uirBit k = false) hmem (fun u hu => ?_) hclears
    (fun _ _ u v hu hv => exec_uirBit_false hv hu) h
  exact Bool.eq_false_iff.2 fun hset => hu ((test_flag_iff u (by omega)).2 hset)

/-! ## The attach (R282, R283) -/

/-- The branches of the flags test one flag of `UIR[6:0]` each. -/
theorem flag_rows : ∀ row ∈ branchRows.drop 3, ∃ k : Fin 7, row.1 = BitVec.twoPow 16 k.val ∧ row.2.1 = row.1 := by
  decide

/-- With no flag set, the branches of the flags change nothing. -/
theorem runBranches_of_no_flags {s : State} (h : s.uir &&& 0x7F = 0) :
    runBranches (branchRows.drop 3) s = .next s := by
  refine runBranches_of_none_taken fun row hrow htest => ?_
  obtain ⟨k, hmask, hmatch⟩ := flag_rows row hrow
  rw [hmatch, hmask, test_flag_iff s (by omega), (flags_eq_zero_iff s).1 h k k.isLt] at htest
  cases htest

/-- Settles O27: with bus power DETACH is passed over, and with no flag set all behind POWERED
(`runBranches_of_no_flags`); ATTACH is taken, and POWERED after it unless there is a single-ended zero. -/
theorem attachEnablesAndPowers : Obligations.AttachEnablesAndPowers := by
  refine ⟨fun _ => rfl, fun _ => rfl, fun s hdev hvbus hmoden hflags => ?_⟩
  have hok : s.devOk = true := State.devOk_of_le (by rw [hdev]; decide)
  have hdetach : s.view &&& 0x0500 ≠ 0x0400 := fun htest => by
    have hnoBus := ((test_detach_iff s).1 htest).2
    rw [hvbus] at hnoBus
    cases hnoBus
  have hattach := (test_attach_iff s).2 ⟨hdev, hmoden, hvbus⟩
  have hattached : pumpStep s = runBranches (branchRows.drop 2) { s with moden := true, devstate := 1 } := by
    rw [pumpStep, withDevState_ok hok]
    exact (runBranches_cons_not_taken hdetach).trans (runBranches_cons_taken hattach rfl)
  have hpowered := test_powered_iff { s with moden := true, devstate := 1 }
  rw [hattached]
  by_cases hse0 : s.se0 = true
  · have htest := mt hpowered.1 fun htaken => Bool.false_ne_true (htaken.2.1.symm.trans hse0)
    rw [if_pos hse0]
    exact (runBranches_cons_not_taken htest).trans (runBranches_of_no_flags hflags)
  · have htest := hpowered.2 ⟨rfl, Bool.eq_false_iff.2 hse0, hvbus⟩
    rw [if_neg hse0]
    exact (runBranches_cons_taken htest rfl).trans (runBranches_of_no_flags hflags)

end Sys2Proof.Machine
end

section
/-! PROOFS. The device state (43_device_state_and_pump.md section 5): the edges each instruction can take, as one
inductive predicate, and the states in which they begin. -/

namespace Sys2Proof.Machine

open Sys2Proof.Safety

/-! ## The edges (R295) -/

/-- The device states to which running `i` can lead from `s`. -/
inductive DevStep (i : Instr) (s : State) : BitVec 3 → Prop
  | same : DevStep i s s.devstate
  | attach (hi : i = .attach) : DevStep i s 1
  | powered (hi : i = .powered) : DevStep i s 2
  | busReset (hi : i = .urst) (hs : s.devstate ≠ 0) : DevStep i s 3
  | detach (hi : i = .detach) : DevStep i s 0
  | addressed (hi : runs s i .trnEp0In) (hstage : s.stage = 1) (hpend : s.apend = true) :
      DevStep i s (if s.paddr = 0 then 3 else 4)
  | configured {v x l : BitVec 16}
      (hi : i = .setConfiguration v x l
        ∨ (runs s i .trnEp0Setup ∧ s.bds.ep0Out.count = 8
          ∧ decodeSetup (latchSetup s).setup = .ok (.setConfiguration v x l))) :
      DevStep i s (if v.extractLsb' 0 8 = 0#8 then 4 else 5)

/-! ### Requests -/

@[simp] theorem acceptRequest_devstate (v : Verdict) (s : State) :
    (acceptRequest v s).devstate = v.devRec.devstate := by
  unfold acceptRequest
  cases v.act <;> simp [runAct, cfgOff, cfgOn]

theorem dataInChunk_devstate {s t : State} (h : dataInChunk s = .next t) : t.devstate = s.devstate := by
  rw [dataInChunk_eq_next] at h
  obtain ⟨b, -, rfl⟩ := h
  rfl

theorem startIn_devstate {tab : BitVec 3} {len wLength : BitVec 16} {s t : State}
    (h : startIn tab len wLength s = .next t) : t.devstate = s.devstate := by
  rw [startIn_eq_next] at h
  obtain ⟨s1, hchunk, rfl⟩ := h
  exact (dataInChunk_devstate hchunk).trans rfl

/-- A request leaves the device state, or writes that of its verdict (R209). -/
theorem finishRequest_devstate {toHost : Bool} {wLength : BitVec 16} {v : Verdict} {s t : State}
    (h : finishRequest toHost wLength v s = .next t) : t.devstate = s.devstate ∨ t.devstate = v.devRec.devstate := by
  rcases finishRequest_eq_next h with ⟨-, rfl⟩ | ⟨-, -, rfl⟩ | ⟨-, -, hin⟩
  · exact .inl rfl
  · exact .inr (acceptRequest_devstate v s)
  · exact .inr ((startIn_devstate hin).trans (acceptRequest_devstate v s))

/-- Of the requests, SET_CONFIGURATION alone writes the device state (R262, R263). -/
theorem requestVerdict_devstate (i : Instr) (d : DevRec) :
    (requestVerdict i d).devRec.devstate = d.devstate
      ∨ ∃ v x l, i = .setConfiguration v x l
        ∧ (requestVerdict i d).devRec.devstate = if v.extractLsb' 0 8 = 0#8 then 4 else 5 := by
  by_cases hact : (requestVerdict i d).act = .none
  · left
    rcases (VerdictFits.request i d).act with ⟨-, hdev⟩ | ⟨hoff, -⟩ | ⟨hon, -⟩
    · exact hdev
    · rw [hact] at hoff
      cases hoff
    · rw [hact] at hon
      cases hon
  · right
    obtain ⟨v, x, l, rfl⟩ := requestVerdict_act hact
    refine ⟨v, x, l, rfl, ?_⟩
    by_cases hzero : v.extractLsb' 0 8 = 0#8
    · rw [if_pos hzero, requestVerdict, verdictSetConfiguration_of_zero hzero]
      rfl
    · rw [if_neg hzero, requestVerdict, verdictSetConfiguration_of_ne_zero hzero]
      rfl

theorem exec_request_devStep {i : Instr} {packet : BitVec 64} {s t : State} (henc : encode i = .setup packet)
    (h : exec i s = .next t) : DevStep i s t.devstate := by
  rw [exec_request henc] at h
  rcases finishRequest_devstate h with heq | heq <;> rw [heq]
  · exact .same
  · rcases requestVerdict_devstate i s.devRec with hdev | ⟨v, x, l, hi, hdev⟩ <;> rw [hdev]
    · exact .same
    · exact .configured (.inl hi)

/-! ### Transactions -/

theorem execTrnEp0Setup_devStep {i : Instr} {s t : State} (hi : runs s i .trnEp0Setup)
    (h : execTrnEp0Setup s = .next t) : DevStep i s t.devstate := by
  rcases execTrnEp0Setup_eq_next h with ⟨hcount, hfin⟩ | ⟨-, rfl⟩
  · rcases finishRequest_devstate hfin with heq | heq <;> rw [heq]
    · exact .same
    · cases hdec : decodeSetup (latchSetup s).setup with
      | error e =>
        rw [dispatchRequest_of_error hdec]
        exact .same
      | ok j =>
        rw [dispatchRequest, hdec]
        rcases requestVerdict_devstate j (contextReset (latchSetup s)).devRec with hdev | ⟨v, x, l, rfl, hdev⟩ <;>
          rw [hdev]
        · exact .same
        · exact .configured (.inr ⟨hi, hcount, hdec⟩)
  · exact .same

theorem execTrnEp0In_devStep {i : Instr} {s t : State} (hi : runs s i .trnEp0In) (h : execTrnEp0In s = .next t) :
    DevStep i s t.devstate := by
  rcases s.stage?_cases with ⟨hstage, -⟩ | ⟨hstage, -⟩ | ⟨hstage, -⟩ | ⟨-, hnone⟩
  · rw [execTrnEp0In_setup hstage] at h
    cases h
    exact .same
  · rw [execTrnEp0In_dataOut hstage] at h
    cases h
    unfold applyAddress
    split
    · rename_i hpend
      have hdev := DevStep.addressed hi hstage hpend
      rwa [← ite_not] at hdev
    · exact .same
  · rw [execTrnEp0In_dataIn hstage] at h
    split at h
    · rw [dataInChunk_devstate h]
      exact .same
    · cases h
      exact .same
  · simp [execTrnEp0In, withStage, hnone] at h

theorem execTrn_devStep {s t : State} (h : execTrn s = .next t) : DevStep .trn s t.devstate := by
  obtain ⟨s1, rfl, hs1⟩ := execTrn_eq_next h
  rw [State.clearUir_devstate]
  rcases hs1 with ⟨-, rfl⟩ | ⟨hdef, ⟨hu, hsetup⟩ | ⟨-, hout⟩ | ⟨hu, hin⟩ | ⟨-, -, -, rfl | rfl⟩⟩
  · exact .same
  · exact execTrnEp0Setup_devStep (.inr ⟨rfl, hdef, by rw [hu]; rfl⟩) hsetup
  · obtain ⟨stage, rxtot, rfl⟩ := execTrnEp0Out_eq_next hout
    exact .same
  · exact execTrnEp0In_devStep (.inr ⟨rfl, hdef, by rw [hu]; rfl⟩) hin
  · exact .same
  · exact .same

/-! ### Every instruction and every move -/

/-- The edges of each instruction. -/
theorem exec_devStep {i : Instr} {s t : State} (h : exec i s = .next t) : DevStep i s t.devstate := by
  cases i
  case getStatusDev | getStatusIf | getStatusEp | clearFeatureDev | clearFeatureEp | setFeatureDev | setFeatureEp
      | setAddress | getDescriptor | getConfiguration | setConfiguration | getInterface | setInterface =>
    exact exec_request_devStep rfl h
  case bulkWrite =>
    rcases execBulkWrite_eq_next h with ⟨r, q, rfl⟩ | ⟨e, m, r, q, -, rfl⟩ <;> exact .same
  case bulkRead =>
    rcases execBulkRead_eq_next h with ⟨r, q, rfl⟩ | ⟨e, n, m, r, q, -, rfl⟩ <;> exact .same
  case status =>
    rw [execStatus_eq_next h]
    exact .same
  case arm | drain | reclaim | actv | idle | sof | stall | uerr | trnEp1Out | trnEp2Out | trnEp1In | trnEp2In =>
    cases h
    exact .same
  case attach =>
    cases h
    exact .attach rfl
  case powered =>
    cases h
    exact .powered rfl
  case detach =>
    cases h
    exact .detach rfl
  case urst =>
    rcases execUrst_eq_next h with ⟨-, rfl⟩ | ⟨hdev, rfl⟩
    · exact .same
    · exact .busReset rfl hdev
  case trn => exact execTrn_devStep h
  case trnEp0Setup => exact execTrnEp0Setup_devStep (.inl rfl) h
  case trnEp0Out =>
    obtain ⟨stage, rxtot, rfl⟩ := execTrnEp0Out_eq_next h
    exact .same
  case trnEp0In => exact execTrnEp0In_devStep (.inl rfl) h

theorem commandStep_devstate {c : BitVec 32} {data : List Byte} {s t : State} (h : commandStep c data s = .next t) :
    t.devstate = s.devstate := by
  unfold commandStep at h
  split at h
  · rename_i i hdec
    rcases decodeCmd_eq_ok hdec with rfl | rfl | rfl
    · rcases execBulkWrite_eq_next h with ⟨r, q, rfl⟩ | ⟨e, m, r, q, -, rfl⟩ <;> rfl
    · rcases execBulkRead_eq_next h with ⟨r, q, rfl⟩ | ⟨e, n, m, r, q, -, rfl⟩ <;> rfl
    · rw [execStatus_eq_next h]
      rfl
  · cases h
    rfl

theorem sieIn_devstate (acked : Bool) (a : BitVec 7) (ep : BitVec 4) (s : State) :
    (sieIn acked a ep s).devstate = s.devstate := by
  rcases sieIn_cases acked a ep s with ⟨e, heq⟩ | heq | ⟨e, -, heq | heq⟩ <;> rw [heq] <;> rfl

/-- The agents but the pump leave the device state. -/
theorem lineStep_devstate {l : Line} {s t : State} (hl : l ≠ .pump) (h : lineStep l s = .next t) :
    t.devstate = s.devstate := by
  unfold lineStep at h
  split at h
  · cases l with
    | pump => exact absurd rfl hl
    | cmd c data => exact commandStep_devstate h
    | setup a bytes =>
      cases h
      rcases sieSetup_cases a bytes s with ⟨e, heq⟩ | ⟨e, -, -, heq⟩ <;> rw [heq] <;> rfl
    | out a ep d bytes =>
      cases h
      rcases sieOut_cases a ep d bytes s with ⟨e, heq⟩ | heq | heq | ⟨e, -, -, heq⟩ <;> rw [heq] <;> rfl
    | inToken a ep =>
      cases h
      exact sieIn_devstate ..
    | inLost a ep =>
      cases h
      exact sieIn_devstate ..
    | flag f =>
      cases h
      unfold sieFlag
      split <;> rfl
    | bus vbus se0 =>
      cases h
      rfl
  · cases h

/-- From Default on, and short of the reserved values (R54). -/
theorem devstate_default_cases {d : BitVec 3} (hlo : 3 ≤ d) (hhi : d ≤ 5) : d = 3 ∨ d = 4 ∨ d = 5 := by
  revert d
  decide

/-- Settles O40: the targets by `exec_devStep`; the sources by the branch tests, (I1) and where an address may be
pending. The moves by `lineStep_devstate`. -/
theorem deviceStateEdges : Obligations.DeviceStateEdges := by
  refine ⟨fun i s t hlegal htest hdefault h hne => ?_, fun _ _ _ => lineStep_devstate⟩
  have hstep := exec_devStep h
  generalize t.devstate = d at hstep hne
  cases hstep with
  | same => exact absurd rfl hne
  | attach hi =>
    have hsource := (test_attach_iff s).1 (htest (0x7500, 0x0100, .attach) (by decide) hi.symm)
    exact .inl ⟨hi, hsource.1, rfl⟩
  | powered hi =>
    have hsource := (test_powered_iff s).1 (htest (0x7300, 0x1100, .powered) (by decide) hi.symm)
    exact .inr (.inl ⟨hi, hsource.1, rfl⟩)
  | busReset hi hs => exact .inr (.inr (.inl ⟨hi, hs, rfl⟩))
  | detach hi => exact .inr (.inr (.inr (.inl ⟨hi, hne.symm, rfl⟩)))
  | addressed hi hstage hpend =>
    exact .inr (.inr (.inr (.inr (.inl ⟨hi, hlegal.pendingFits hpend, hstage, hpend, rfl⟩))))
  | @configured v x l hi =>
    have hdef : 3 ≤ s.devstate := by
      rcases hi with rfl | ⟨rfl | ⟨-, hdef, -⟩, -⟩
      · exact hdefault (.inl ⟨_, rfl⟩)
      · exact hdefault (.inr ⟨_, rfl⟩)
      · exact hdef
    exact .inr (.inr (.inr (.inr (.inr ⟨devstate_default_cases hdef hlegal.devLegal, v, x, l, hi, rfl⟩))))

/-- TRN does not lead below Default. -/
theorem DevStep.default_of_trn {s : State} {d : BitVec 3} (h : DevStep .trn s d) (hs : 3 ≤ s.devstate) : 3 ≤ d := by
  cases h with
  | same => exact hs
  | attach hi | powered hi | busReset hi | detach hi => cases hi
  | addressed | configured => split <;> decide

end Sys2Proof.Machine
end

section
/-! PROOFS. What a legal state guarantees of its device state (43_device_state_and_pump.md sections 4 and 5): a latched
transaction completes from Default on, and the bulk channel is closed outside Configured. -/

namespace Sys2Proof.Safety

open Sys2Proof.Machine

/-! ## TRN completes (R61, R291) -/

theorem Legal.stage_cases {s : State} (h : Legal s) : s.stage = 0 ∨ s.stage = 1 ∨ s.stage = 2 := by
  have hstage := h.stageLegal
  generalize s.stage = st at hstage
  revert st
  decide

theorem execTrnEp0Out_completes {s : State} (h : Legal s) : ∃ t, execTrnEp0Out s = .next t := by
  rcases h.stage_cases with hstage | hstage | hstage
  · exact ⟨_, execTrnEp0Out_setup hstage⟩
  · exact ⟨_, execTrnEp0Out_dataOut hstage⟩
  · exact ⟨_, execTrnEp0Out_dataIn hstage⟩

/-- What remains of a response lies in a table that exists: (I4). -/
theorem Legal.source_table {s : State} (h : Legal s) (hstage : s.stage = 2) (hrem : s.remain ≠ 0) :
    ∃ b, s.table s.srcT = some b ∧ s.srcOff.toNat + s.remain.toNat ≤ b.length := by
  have hsource := (h.source hstage).2
  have hpos : s.remain.toNat ≠ 0 := fun hzero => hrem (BitVec.eq_of_toNat_eq hzero)
  cases htable : s.table s.srcT with
  | some b => exact ⟨b, rfl, by rwa [State.length_table htable]⟩
  | none =>
    rcases (s.table_eq_none_iff s.srcT).1 htable with ht | ht <;>
    · rw [ht] at hsource
      exact absurd hsource (by simp [tlen, hpos])

theorem execTrnEp0In_completes {s : State} (h : Legal s) (hown : s.bds.ep0In.own = .sw) :
    ∃ t, execTrnEp0In s = .next t := by
  rcases h.stage_cases with hstage | hstage | hstage
  · exact ⟨_, execTrnEp0In_setup hstage⟩
  · exact ⟨_, execTrnEp0In_dataOut hstage⟩
  · rw [execTrnEp0In_dataIn hstage]
    split
    · rename_i hrem
      obtain ⟨b, htable, hfits⟩ := h.source_table hstage hrem
      exact ⟨_, dataInChunk_of_table hown htable hfits⟩
    · exact ⟨_, rfl⟩

/-- The row a latched transaction decodes to completes: the block owns the descriptors its handler needs, (I7). -/
theorem latchedRow_completes {s : State} {i : Instr} (h : Legal s) (hdef : 3 ≤ s.devstate)
    (htrn : s.uir.getLsbD 3 = true) (hdec : decodeUstat s.ustat = .ok i) : ∃ t, exec i s = .next t := by
  obtain ⟨hsetup, hin⟩ := latched_ep0_owned h htrn
  have hruns : runs s .trn i := .inr ⟨rfl, hdef, encode_of_decodeUstat hdec⟩
  have hrow : i ∈ ustatRows.map Prod.snd := List.mem_map_of_mem (decodeUstat_eq_ok hdec)
  simp only [ustatRows, List.map, List.mem_cons, List.not_mem_nil, or_false] at hrow
  rcases hrow with rfl | rfl | rfl | rfl | rfl | rfl | rfl
  · obtain ⟨t, ht, -⟩ := (setupHandlerCompletes s (hsetup hruns)).1 h.devLegal
    exact ⟨t, ht⟩
  · exact execTrnEp0Out_completes h
  · exact execTrnEp0In_completes h (hin hruns)
  · exact ⟨_, rfl⟩
  · exact ⟨_, rfl⟩
  · exact ⟨_, rfl⟩
  · exact ⟨_, rfl⟩

theorem execTrn_completes {s : State} (h : Legal s) (hdef : 3 ≤ s.devstate) (htrn : s.uir.getLsbD 3 = true) :
    ∃ t, execTrn s = .next t := by
  obtain ⟨hrow, -, hnoRow⟩ := trnRunsTheLatchedRow s h.devLegal
  cases hdec : decodeUstat s.ustat with
  | error e => exact ⟨_, hnoRow e hdec⟩
  | ok i =>
    obtain ⟨t, ht⟩ := latchedRow_completes h hdef htrn hdec
    exact ⟨_, (hrow hdef i hdec).trans (by rw [ht, Result.andThen])⟩

/-- Settles O37: TRN completes (`execTrn_completes`) in a legal state from Default on with the latch free, where EP0 OUT
is armed. -/
theorem trnCompletesInLegalStates : Obligations.TrnCompletesInLegalStates := by
  intro s h hdef htrn
  obtain ⟨t, ht⟩ := execTrn_completes h hdef htrn
  have hsurroundings := execTrn_surroundings ht
  have hfree : t.uirBit uirTRN = false := by
    obtain ⟨s1, rfl, -⟩ := execTrn_eq_next ht
    exact uirBit_clearUir_same s1 uirTRN
  have harmed : (t.bd 0).own = .hw :=
    (execTrn_legal h ht).ep0Out_armed ((execTrn_devStep ht).default_of_trn hdef) fun hset => by
      rw [hfree] at hset
      cases hset
  exact ⟨t, ht, congrArg Surroundings.uir hsurroundings, harmed, congrArg Surroundings.ustat hsurroundings⟩

/-! ## The bulk channel (R297) -/

/-- A token for an endpoint that is not enabled is ignored (R341). -/
theorem tokenGate_of_disabled {s : State} {ep : Fin 3} (h : s.enabled ep.val = false) (a : BitVec 7) :
    tokenGate s a (BitVec.ofNat 4 ep.val) = .error .noAnswer := by
  simp [tokenGate, epOf_ofNat, h]

/-- Outside Configured no bulk endpoint is enabled: (I2). -/
theorem Legal.bulk_disabled {s : State} {ep : Fin 3} (h : Legal s) (hdev : s.devstate ≠ 5) (hep : ep ≠ 0) :
    s.enabled ep.val = false := by
  obtain ⟨-, h1, h2⟩ := h.enables
  have hconf : (s.devstate == devConfigured) = false := beq_false_of_ne hdev
  match ep with
  | 0 => exact absurd rfl hep
  | 1 => exact h1.trans hconf
  | 2 => exact h2.trans hconf

theorem bulkEp_ofNat {ep : Fin 3} (hep : ep ≠ 0) : bulkEp (BitVec.ofNat 4 ep.val) = some ep := by
  revert ep
  decide

section

variable {s : State} {ep : BitVec 4} {e : Fin 3}

/-- BULK_WRITE outside Configured queues nothing (R322). -/
theorem execBulkWrite_of_not_configured (he : bulkEp ep = some e) (hle : s.devstate ≤ 5) (hne : s.devstate ≠ 5)
    (data : List Byte) : execBulkWrite ep data s = .next (s.answer 0 []) := by
  simp only [execBulkWrite, he, withDevState_ok (State.devOk_of_le hle), if_pos hne]
  rfl

/-- BULK_READ outside Configured takes nothing (R324). -/
theorem execBulkRead_of_not_configured (he : bulkEp ep = some e) (hle : s.devstate ≤ 5) (hne : s.devstate ≠ 5)
    (len : Byte) : execBulkRead ep len s = .next (s.answer 0 []) := by
  simp only [execBulkRead, he, withDevState_ok (State.devOk_of_le hle), if_pos hne]
  rfl

end

/-- Settles O59: the tokens stop at the gate (`tokenGate_of_disabled`), the commands at the test of the device state. -/
theorem bulkNeedsConfigured : Obligations.BulkNeedsConfigured := by
  intro s ep a d bytes data len h hdev hep hlen
  have hgate := tokenGate_of_disabled (h.bulk_disabled hdev hep) a
  refine ⟨?out, ?inToken, execBulkWrite_of_not_configured (bulkEp_ofNat hep) h.devLegal hdev data,
    execBulkRead_of_not_configured (bulkEp_ofNat hep) h.devLegal hdev len⟩
  case out =>
    have hout : sieOut a (BitVec.ofNat 4 ep.val) d bytes s = s.emit .noAnswer := by rw [sieOut, hgate]
    exact (if_pos (decide_eq_true hlen)).trans (congrArg _ hout)
  case inToken =>
    have hin : sieIn true a (BitVec.ofNat 4 ep.val) s = s.emit .noAnswer := by rw [sieIn, hgate]
    exact congrArg _ hin

end Sys2Proof.Safety
end

section
/-! PROOFS. Suspend is orthogonal (43_device_state_and_pump.md section 5, R296): every instruction but STATUS commutes
with a change of `SUSP`, or writes the flag itself. -/

namespace Sys2Proof.Machine

open Sys2Proof.Safety

/-- `s` with this value of `SUSP`. -/
def State.withSusp (s : State) (b : Bool) : State := { s with susp := b }

theorem acceptRequest_withSusp (v : Verdict) (s : State) (b : Bool) :
    acceptRequest v (s.withSusp b) = (acceptRequest v s).withSusp b := by
  unfold acceptRequest
  cases v.act <;> cases v.rb <;> rfl

theorem applyAddress_withSusp (s : State) (b : Bool) :
    applyAddress (s.withSusp b) = (applyAddress s).withSusp b := by
  unfold applyAddress
  rw [show (s.withSusp b).apend = s.apend from rfl]
  split <;> rfl

/-- An operation that neither reads nor writes `SUSP`: with the flag changed it ends as it did, the flag aside. -/
def SuspBlind (f : State → Result) : Prop :=
  ∀ s b, f (s.withSusp b) = (f s).andThen fun t => .next (t.withSusp b)

namespace SuspBlind

theorem next {g : State → State} (h : ∀ s b, g (s.withSusp b) = (g s).withSusp b) : SuspBlind fun s => .next (g s) :=
  fun s b => congrArg _ (h s b)

theorem andThen {f k : State → Result} (hf : SuspBlind f) (hk : SuspBlind k) : SuspBlind fun s => (f s).andThen k := by
  intro s b
  dsimp only
  rw [hf s b]
  cases f s with
  | next t => exact hk t b
  | fault r | refused r => rfl

theorem ite {c : State → Prop} [∀ s, Decidable (c s)] {f g : State → Result} (hc : ∀ s b, c (s.withSusp b) ↔ c s)
    (hf : SuspBlind f) (hg : SuspBlind g) : SuspBlind fun s => if c s then f s else g s := by
  intro s b
  by_cases h : c s
  · simp only [if_pos h, if_pos ((hc s b).2 h)]
    exact hf s b
  · simp only [if_neg h, if_neg (mt (hc s b).1 h)]
    exact hg s b

theorem withDevState {f : State → Result} (hf : SuspBlind f) : SuspBlind fun s => withDevState s (f s) :=
  ite (fun _ _ => Iff.rfl) hf fun _ _ => rfl

theorem withStage {k : State → Stage → Result} (hk : ∀ st, SuspBlind fun s => k s st) :
    SuspBlind fun s => withStage s (k s) := by
  intro s b
  dsimp only [Machine.withStage]
  rw [show (s.withSusp b).stage? = s.stage? from rfl]
  cases s.stage? with
  | none => rfl
  | some st => exact hk st s b

/-! ## Requests -/

theorem dataInChunk : SuspBlind dataInChunk := by
  intro s b
  unfold Machine.dataInChunk
  dsimp only
  rw [show (s.withSusp b).romRead (s.withSusp b).srcT (s.withSusp b).srcOff.toNat (chunkLen (s.withSusp b).remain)
    = s.romRead s.srcT s.srcOff.toNat (chunkLen s.remain) from rfl]
  cases s.romRead s.srcT s.srcOff.toNat (chunkLen s.remain) <;> rfl

theorem startIn (tab : BitVec 3) (len wLength : BitVec 16) : SuspBlind (startIn tab len wLength) := by
  have hload : SuspBlind fun s => Machine.dataInChunk { s with
      remain := if len ≤ wLength then len else wLength, srcT := tab, srcOff := 0 } := fun s b =>
    dataInChunk { s with remain := if len ≤ wLength then len else wLength, srcT := tab, srcOff := 0 } b
  exact hload.andThen (next fun _ _ => rfl)

theorem finishRequest (toHost : Bool) (wLength : BitVec 16) (v : Verdict) :
    SuspBlind (finishRequest toHost wLength v) := by
  have hin : SuspBlind fun s => Machine.startIn v.table v.len wLength (acceptRequest v s) := fun s b => by
    dsimp only
    rw [acceptRequest_withSusp]
    exact startIn _ _ _ _ b
  have hout : SuspBlind fun s => .next (startOut (acceptRequest v s)) := next fun s b => by
    rw [acceptRequest_withSusp]
    rfl
  exact withDevState (ite (fun _ _ => Iff.rfl) (ite (fun _ _ => Iff.rfl) hin hout) (next fun _ _ => rfl))

/-- The dispatcher does not see `SUSP` (R230). -/
theorem request {i : Instr} {packet : BitVec 64} (henc : encode i = .setup packet) : SuspBlind (exec i) := by
  intro s b
  rw [exec_request henc, exec_request henc]
  exact finishRequest _ _ (requestVerdict i s.devRec) s b

/-! ## Transactions -/

theorem execTrnEp0Setup : SuspBlind execTrnEp0Setup := by
  have hserved : SuspBlind fun s =>
      Machine.finishRequest (setupToHost (latchSetup s).setup) (setupLength (latchSetup s).setup)
        (dispatchRequest (latchSetup s).setup (contextReset (latchSetup s)).devRec) (contextReset (latchSetup s)) :=
    fun s b => finishRequest _ _ _ (contextReset (latchSetup s)) b
  exact ite (fun _ _ => Iff.rfl) hserved (next fun _ _ => rfl)

theorem execTrnEp0Out : SuspBlind execTrnEp0Out := withStage fun st => by
  cases st <;> exact next fun _ _ => rfl

theorem execTrnEp0In : SuspBlind execTrnEp0In := withStage fun st => by
  cases st with
  | setup => exact next fun _ _ => rfl
  | dataIn => exact ite (fun _ _ => Iff.rfl) dataInChunk (next fun _ _ => rfl)
  | dataOut =>
    refine next fun s b => ?_
    rw [applyAddress_withSusp]
    rfl

theorem transaction {i : Instr} (h : i ∈ ustatRows.map Prod.snd) : SuspBlind (exec i) := by
  simp only [ustatRows, List.map, List.mem_cons, List.not_mem_nil, or_false] at h
  rcases h with rfl | rfl | rfl | rfl | rfl | rfl | rfl
  · exact execTrnEp0Setup
  · exact execTrnEp0Out
  · exact execTrnEp0In
  · exact next fun _ _ => rfl
  · exact next fun _ _ => rfl
  · exact next fun _ _ => rfl
  · exact next fun _ _ => rfl

theorem routeTransaction : SuspBlind routeTransaction := by
  intro s b
  have hlatch : (s.withSusp b).ustat = s.ustat := rfl
  cases hdec : decodeUstat s.ustat with
  | ok i =>
    rw [routeTransaction_of_ok hdec, routeTransaction_of_ok (hlatch ▸ hdec)]
    exact transaction (List.mem_map_of_mem (decodeUstat_eq_ok hdec)) s b
  | error e =>
    rw [routeTransaction_of_error hdec, routeTransaction_of_error (hlatch ▸ hdec)]
    rfl

theorem execTrn : SuspBlind execTrn :=
  withDevState ((ite (fun _ _ => Iff.rfl) routeTransaction (next fun _ _ => rfl)).andThen (next fun _ _ => rfl))

/-! ## Commands -/

theorem execBulkWrite (ep : BitVec 4) (data : List Byte) : SuspBlind (execBulkWrite ep data) := by
  unfold Machine.execBulkWrite
  cases bulkEp ep with
  | none => exact next fun _ _ => rfl
  | some e =>
    refine withDevState (ite (fun _ _ => Iff.rfl) (next fun _ _ => rfl) fun s b => ?_)
    rw [show (s.withSusp b).bd (bdOf e .inward) = s.bd (bdOf e .inward) from rfl]
    cases (s.bd (bdOf e .inward)).own <;> rfl

theorem execBulkRead (ep : BitVec 4) (len : Byte) : SuspBlind (execBulkRead ep len) := by
  unfold Machine.execBulkRead
  cases bulkEp ep with
  | none => exact next fun _ _ => rfl
  | some e =>
    refine withDevState (ite (fun _ _ => Iff.rfl) (next fun _ _ => rfl) fun s b => ?_)
    rw [show (s.withSusp b).bd (bdOf e .outward) = s.bd (bdOf e .outward) from rfl]
    cases (s.bd (bdOf e .outward)).own <;> rfl

/-! ## Every instruction that leaves the flag -/

theorem exec_of_not_writer {i : Instr} (hstatus : i ≠ .status) (hactv : i ≠ .actv) (hidle : i ≠ .idle)
    (hurst : i ≠ .urst) (hdetach : i ≠ .detach) : SuspBlind (exec i) := by
  cases i
  case getStatusDev | getStatusIf | getStatusEp | clearFeatureDev | clearFeatureEp | setFeatureDev | setFeatureEp
      | setAddress | getDescriptor | getConfiguration | setConfiguration | getInterface | setInterface =>
    exact request rfl
  case bulkWrite ep data => exact execBulkWrite ep data
  case bulkRead ep len => exact execBulkRead ep len
  case status | actv | idle | urst | detach => contradiction
  case arm | drain | reclaim | attach | powered | sof | stall | uerr => exact next fun _ _ => rfl
  case trn => exact execTrn
  case trnEp0Setup | trnEp0Out | trnEp0In | trnEp1Out | trnEp2Out | trnEp1In | trnEp2In =>
    exact transaction (by decide)

end SuspBlind

/-- A bus reset clears `SUSP`, or leaves it in Detached. -/
theorem execUrst_withSusp {s t : State} (h : execUrst s = .next t) (b : Bool) :
    ∃ u, execUrst (s.withSusp b) = .next u ∧ u = { t with susp := u.susp } := by
  unfold execUrst at h ⊢
  rw [withDevState_eq_next] at h
  obtain ⟨hdev, h⟩ := h
  cases h
  refine ⟨_, withDevState_ok hdev _, ?_⟩
  rw [show (s.withSusp b).devstate = s.devstate from rfl]
  split <;> rfl

/-- Settles O41: four instructions write the flag without reading it, the others do neither
(`SuspBlind.exec_of_not_writer`). -/
theorem suspendIsOrthogonal : Obligations.SuspendIsOrthogonal := by
  intro i s t b hstatus h
  by_cases hwriter : i = .actv ∨ i = .idle ∨ i = .detach ∨ i = .urst
  · rcases hwriter with rfl | rfl | rfl | rfl
    · cases h
      exact ⟨_, rfl, rfl⟩
    · cases h
      exact ⟨_, rfl, rfl⟩
    · cases h
      exact ⟨_, rfl, rfl⟩
    · exact execUrst_withSusp h b
  · obtain ⟨hactv, hidle, hdetach, hurst⟩ : i ≠ .actv ∧ i ≠ .idle ∧ i ≠ .detach ∧ i ≠ .urst := by
      simpa only [not_or] using hwriter
    have hblind := SuspBlind.exec_of_not_writer hstatus hactv hidle hurst hdetach s b
    rw [h] at hblind
    exact ⟨t.withSusp b, hblind, rfl⟩

end Sys2Proof.Machine
end

section
/-! PROOFS. The command port (44_bulk.md): which words it refuses, what BULK_WRITE and BULK_READ leave by the device
state and the owner of the descriptor, and the answer word of STATUS. -/

namespace Sys2Proof.Machine

open Safety

/-! ## Refused commands (R321) -/

/-- What the mask of the two bulk rows keeps of a command word: the opcode and the two fields that must be 0 (R114). -/
theorem fields_of_masked_bulk {c k : BitVec 32} (h : c &&& 0xFF00F0FF = k) :
    c.extractLsb' 0 8 = k.extractLsb' 0 8 ∧ c.extractLsb' 12 4 = k.extractLsb' 12 4
      ∧ c.extractLsb' 24 8 = k.extractLsb' 24 8 :=
  ⟨extractLsb'_of_masked h 0 8 (by decide), extractLsb'_of_masked h 12 4 (by decide),
    extractLsb'_of_masked h 24 8 (by decide)⟩

/-- A word that decodes has its reserved fields 0, and the fields and the data operand its opcode asks for (R114). -/
theorem fields_of_decodeCmd {c : BitVec 32} {data : List Byte} {i : Instr} (h : decodeCmd c data = .ok i) :
    c.extractLsb' 12 4 = 0#4 ∧ c.extractLsb' 24 8 = 0#8
      ∧ ((i = .bulkWrite (cmdEp c) data ∧ c.extractLsb' 0 8 = 1#8 ∧ data.length = (cmdLen c).toNat)
        ∨ (i = .bulkRead (cmdEp c) (cmdLen c) ∧ c.extractLsb' 0 8 = 2#8 ∧ data.length = 0)
        ∨ (i = .status ∧ c.extractLsb' 0 8 = 3#8 ∧ c.extractLsb' 8 4 = 0#4 ∧ c.extractLsb' 16 8 = 0#8
          ∧ data.length = 0)) := by
  unfold decodeCmd at h
  split_ifs at h with hwrite hlen hread hlen hstatus hlen <;> cases h
  · obtain ⟨hopc, hlow, hhigh⟩ := fields_of_masked_bulk hwrite
    exact ⟨hlow, hhigh, .inl ⟨rfl, hopc, hlen⟩⟩
  · obtain ⟨hopc, hlow, hhigh⟩ := fields_of_masked_bulk hread
    exact ⟨hlow, hhigh, .inr (.inl ⟨rfl, hopc, hlen⟩)⟩
  · subst hstatus
    exact ⟨by decide, by decide, .inr (.inr ⟨rfl, by decide, by decide, by decide, hlen⟩)⟩

theorem bulkEp_eq_none {ep : BitVec 4} (h1 : ep ≠ 1) (h2 : ep ≠ 2) : bulkEp ep = none := by
  rw [bulkEp, if_neg h1, if_neg h2]

theorem execBulkWrite_of_no_ep {ep : BitVec 4} (h : bulkEp ep = none) (data : List Byte) (s : State) :
    execBulkWrite ep data s = .next (refuseCommand s) := by
  rw [execBulkWrite, h]

theorem execBulkRead_of_no_ep {ep : BitVec 4} (h : bulkEp ep = none) (len : Byte) (s : State) :
    execBulkRead ep len s = .next (refuseCommand s) := by
  rw [execBulkRead, h]

/-- Settles O5: a malformed word does not decode, or it decodes to a bulk row whose endpoint is not 1 or 2
(`fields_of_decodeCmd`), and the row refuses that endpoint. -/
theorem refusedCommandsChangeNothing : Obligations.RefusedCommandsChangeNothing := by
  intro c data s hbad
  change commandStep c data s = .next (refuseCommand s)
  unfold commandStep
  split
  · rename_i i hdec
    obtain ⟨hlow, hhigh, hrow⟩ := fields_of_decodeCmd hdec
    rcases hrow with ⟨rfl, hopc, hlen⟩ | ⟨rfl, hopc, hlen⟩ | ⟨rfl, hopc, hep, hmax, hlen⟩
    · obtain ⟨h1, h2⟩ : cmdEp c ≠ 1#4 ∧ cmdEp c ≠ 2#4 := by
        simpa [hlow, hhigh, hopc, hlen, cmdEp, cmdLen] using hbad
      exact execBulkWrite_of_no_ep (bulkEp_eq_none h1 h2) data s
    · obtain ⟨h1, h2⟩ : cmdEp c ≠ 1#4 ∧ cmdEp c ≠ 2#4 := by
        simpa [hlow, hhigh, hopc, hlen, cmdEp] using hbad
      exact execBulkRead_of_no_ep (bulkEp_eq_none h1 h2) (cmdLen c) s
    · simp [hlow, hhigh, hopc, hlen, hep, hmax] at hbad
  · rfl

/-! ## BULK_WRITE and BULK_READ (R322 to R325, R328) -/

theorem clampPkt_ofNat {i : BdIndex} {n : Nat} (h : n ≤ maxPkt i) :
    clampPkt i (BitVec.ofNat 8 n) = BitVec.ofNat 8 n := by
  have hpkt := maxPkt_le i
  rw [clampPkt_eq_ofNat, BitVec.toNat_ofNat, Nat.mod_eq_of_lt (by omega), Nat.min_eq_left h]

/-- The answer word of a count that a byte holds (R115). -/
theorem respCount_ofNat {n : Nat} (h : n < 256) : respCount (BitVec.ofNat 8 n) = BitVec.ofNat 32 n :=
  BitVec.setWidth_ofNat_of_le_of_lt (by decide) h

/-- ARM with toggle of a descriptor the block owns, with a length its packet size admits (R161, R163). -/
theorem State.arm_toggle_of_sw {s : State} {i : BdIndex} {n : Nat} (hsw : (s.bd i).own = .sw) (hn : n ≤ maxPkt i) :
    s.arm i (BitVec.ofNat 8 n) true
      = { s with bds := s.bds.set i (handedOver (s.bd i) (BitVec.ofNat 8 n) (baseOf i)) } := by
  have harmed : (s.bd i).armed i (BitVec.ofNat 8 n) true = handedOver (s.bd i) (BitVec.ofNat 8 n) (baseOf i) := by
    rw [Bd.armed_of_sw hsw, Bool.xor_true, clampPkt_ofNat hn]
    rfl
  rw [← harmed]
  rfl

section

variable {s : State} {ep : BitVec 4} {e : Fin 3} {i : BdIndex}

/-- In Configured, BULK_WRITE into a descriptor the block owns fills its buffer, hands it over and answers the count of
the bytes taken (R323). -/
theorem execBulkWrite_of_sw (he : bulkEp ep = some e) (hi : bdOf e .inward = i) (hdev : s.devstate = 5)
    (hsw : (s.bd i).own = .sw) (data : List Byte) {n : Nat} (hn : min data.length (maxPkt i) = n) :
    execBulkWrite ep data s = .next { s with
      mem := s.mem.write (baseOf i) (data.take n)
      bds := s.bds.set i (handedOver (s.bd i) (BitVec.ofNat 8 n) (baseOf i))
      resp := some { r := BitVec.ofNat 32 n, q := [] } } := by
  have hok : s.devOk = true := State.devOk_of_le (by rw [hdev]; decide)
  have hle : n ≤ maxPkt i := hn ▸ Nat.min_le_right ..
  have hbyte : n < 256 := (hle.trans (maxPkt_le i)).trans_lt (by decide)
  have htake : data.take (maxPkt i) = data.take n := by rw [List.take_eq_take_min, Nat.min_comm, hn]
  have hfilled : ((s.fill i data).bd i).own = .sw := hsw
  simp only [execBulkWrite, he, hi, withDevState_ok hok, if_neg (not_not.2 hdev), hsw, hn,
    State.armAnswer_of_sw hfilled, State.arm_toggle_of_sw hfilled hle, clampPkt_ofNat hle, respCount_ofNat hbyte]
  rw [State.fill, htake]
  rfl

/-- BULK_WRITE into a descriptor the SIE owns queues nothing (R323). -/
theorem execBulkWrite_of_sie (he : bulkEp ep = some e) (hi : bdOf e .inward = i) (hle : s.devstate ≤ 5)
    (hhw : (s.bd i).own = .hw) (data : List Byte) : execBulkWrite ep data s = .next (s.answer 0 []) := by
  simp only [execBulkWrite, he, hi, withDevState_ok (State.devOk_of_le hle), hhw, ite_self]
  rfl

/-- In Configured, BULK_READ of a descriptor the block owns answers what DRAIN copies and hands the descriptor over for
a full packet (R324). -/
theorem execBulkRead_of_sw (he : bulkEp ep = some e) (hi : bdOf e .outward = i) (hdev : s.devstate = 5)
    (hsw : (s.bd i).own = .sw) (len : Byte) :
    execBulkRead ep len s = .next { s with
      draws := (s.drain i len).2
      bds := s.bds.set i (handedOver (s.bd i) (BitVec.ofNat 8 (maxPkt i)) (baseOf i))
      resp := some { r := respCount (s.drain i len).1.n, q := (s.drain i len).1.bytes } } := by
  have hok : s.devOk = true := State.devOk_of_le (by rw [hdev]; decide)
  have hdrained : ((s.setDraws (s.drain i len).2).bd i).own = .sw := hsw
  simp only [execBulkRead, he, hi, withDevState_ok hok, if_neg (not_not.2 hdev), hsw,
    State.arm_toggle_of_sw hdrained le_rfl]
  rfl

/-- BULK_READ of a descriptor the SIE owns takes nothing (R325). -/
theorem execBulkRead_of_sie (he : bulkEp ep = some e) (hi : bdOf e .outward = i) (hle : s.devstate ≤ 5)
    (hhw : (s.bd i).own = .hw) (len : Byte) : execBulkRead ep len s = .next (s.answer 0 []) := by
  simp only [execBulkRead, he, hi, withDevState_ok (State.devOk_of_le hle), hhw, ite_self]
  rfl

end

/-- Settles O23: the fill and the arm by `execBulkWrite_of_sw`, the two idle cases by the device state and the owner. -/
theorem bulkWriteQueues : Obligations.BulkWriteQueues := by
  intro e data s hep hle i n
  have he := bulkEp_ofNat hep
  constructor
  · intro hdev hsw
    exact execBulkWrite_of_sw he rfl hdev hsw data rfl
  · rintro (hdev | hhw)
    · exact execBulkWrite_of_not_configured he hle hdev data
    · exact execBulkWrite_of_sie he rfl hle hhw data

/-- Settles O24: the arm by `execBulkRead_of_sw`, the bytes by `State.drain_of_sw`, the two idle cases by the device
state and the owner. -/
theorem bulkReadTakes : Obligations.BulkReadTakes := by
  intro e len s hep hle i n
  have he := bulkEp_ofNat hep
  have hbyte : n < 256 := (Nat.min_le_left ..).trans_lt len.isLt
  constructor
  · intro hdev hsw
    have hexec : exec (.bulkRead (BitVec.ofNat 4 e.val) len) s = _ := execBulkRead_of_sw he rfl hdev hsw len
    rw [hexec, State.drain_of_sw hsw, drainCount_toNat, drainCount_eq_ofNat, respCount_ofNat hbyte]
  · rintro (hdev | hhw)
    · exact execBulkRead_of_not_configured he hle hdev len
    · exact execBulkRead_of_sie he rfl hle hhw len

/-! ## STATUS (R326) -/

/-- A concatenation, in a word of any width, is its low part beside its high part, shifted past it. -/
theorem setWidth_append_eq_or {v w n : Nat} (x : BitVec v) (y : BitVec w) :
    (x ++ y).setWidth n = y.setWidth n ||| x.setWidth n <<< w := by
  ext j hj
  simp only [BitVec.getElem_setWidth, BitVec.getElem_or, BitVec.getElem_shiftLeft, BitVec.getLsbD_append]
  by_cases h : j < w
  · simp [h]
  · simp [h, BitVec.getLsbD_of_ge y j (by omega)]

/-- The word of STATUS as R326 writes it: each field shifted to its place. -/
theorem State.statusWord_eq_or (s : State) :
    s.statusWord = s.devstate.setWidth 32 ||| (BitVec.ofBool s.susp).setWidth 32 <<< 3
      ||| (BitVec.ofBool s.rwu).setWidth 32 <<< 4 ||| (BitVec.ofBool s.selfpwr).setWidth 32 <<< 5
      ||| (BitVec.ofBool s.handled).setWidth 32 <<< 6 ||| s.addr.setWidth 32 <<< 8
      ||| (BitVec.ofBool s.apend).setWidth 32 <<< 15 ||| s.config.setWidth 32 <<< 16
      ||| s.stage.setWidth 32 <<< 24 := by
  rw [← BitVec.setWidth_eq s.statusWord, State.statusWord]
  simp only [setWidth_append_eq_or]
  simp only [BitVec.shiftLeft_or_distrib, ← BitVec.shiftLeft_add, ← BitVec.or_assoc, Nat.reduceAdd,
    BitVec.setWidth_zero, BitVec.zero_shiftLeft, BitVec.or_zero]

/-- STATUS answers in every state whose stage and device state are not reserved (R326, R376). -/
theorem execStatus_answers {s : State} (hdev : s.devstate ≤ 5) (hstage : s.stage ≤ 2) :
    execStatus s = .next (s.answer s.statusWord []) := by
  rw [execStatus, withDevState_ok (State.devOk_of_le hdev), withStage]
  rcases s.stage?_cases with ⟨-, h⟩ | ⟨-, h⟩ | ⟨-, h⟩ | ⟨hreserved, -⟩
  case inr.inr.inr =>
    rw [hreserved] at hstage
    exact absurd hstage (by decide)
  all_goals rw [h]

/-- Settles O25: the answer by `execStatus_answers`, its word by `State.statusWord_eq_or`. -/
theorem statusReports : Obligations.StatusReports := by
  intro s hdev hstage bit
  exact (execStatus_answers hdev hstage).trans (by rw [s.statusWord_eq_or]; rfl)

end Sys2Proof.Machine
end

section
/-! PROOFS. The moves of the SIE (45_sie_environment.md sections 1 to 3). A token stops at the gate of R341 or is
served, and the answer to a served one is an equation per token. -/

namespace Sys2Proof.Machine

open Sys2Proof.Safety

/-! ## Lines that are moves -/

section

variable {bytes : List Byte}

theorem lineStep_setup (h : bytes.length ≤ 64) (a : BitVec 7) (s : State) :
    lineStep (.setup a bytes) s = .next (sieSetup a bytes s) := if_pos (decide_eq_true h)

theorem lineStep_out (h : bytes.length ≤ 64) (a : BitVec 7) (ep : BitVec 4) (d : Bool) (s : State) :
    lineStep (.out a ep d bytes) s = .next (sieOut a ep d bytes s) := if_pos (decide_eq_true h)

end

/-! ## The gate (R341, R348) -/

section

variable {s : State} {a : BitVec 7} {ep : BitVec 4} {e : Fin 3}

theorem served_iff_gate : served s a e ↔ tokenGate s a (BitVec.ofNat 4 e.val) = .ok e := by
  rw [tokenGate_eq_ok]
  exact (and_iff_right (epOf_ofNat e)).symm

/-- A token that passes the gate names an endpoint by its number, and is served there. -/
theorem served_of_gate (h : tokenGate s a ep = .ok e) : ep = BitVec.ofNat 4 e.val ∧ served s a e := by
  have hnumber : ∀ ep e, epOf ep = some e → ep = BitVec.ofNat 4 e.val := by decide
  obtain ⟨hep, hserved⟩ := tokenGate_eq_ok.1 h
  exact ⟨hnumber ep e hep, hserved⟩

/-- Why a token is ignored: the module, the address, the endpoint, its enable (R341). -/
def ignoredToken (s : State) (a : BitVec 7) (ep : BitVec 4) : Prop :=
  s.moden = false ∨ a ≠ s.addr ∨ 2 < ep.toNat ∨ s.epen.getLsbD ep.toNat = false

theorem tokenGate_of_ignored (h : ignoredToken s a ep) : tokenGate s a ep = .error .noAnswer := by
  unfold tokenGate epOf
  by_cases hep : ep.toNat < 3
  · rw [dif_pos hep]
    refine if_neg fun ⟨hmoden, haddr, hen⟩ => ?_
    rcases h with h | h | h | h
    · simp [hmoden] at h
    · exact h haddr
    · omega
    · exact Bool.false_ne_true (h.symm.trans hen)
  · rw [dif_neg hep]

theorem tokenGate_of_latched (h : ¬ ignoredToken s a ep) (htrn : s.uir.getLsbD 3 = true) :
    tokenGate s a ep = .error .nak := by
  simp only [ignoredToken, not_or, Bool.not_eq_false, not_not, Nat.not_lt] at h
  obtain ⟨hmoden, haddr, hep, hen⟩ := h
  unfold tokenGate epOf
  rw [dif_pos (Nat.lt_succ_of_le hep)]
  exact (if_pos ⟨hmoden, haddr, hen⟩).trans (if_pos htrn)

end

/-- A token that the gate stops is answered, and nothing else (R341). -/
theorem moves_of_gate_error {s : State} {a : BitVec 7} {ep : BitVec 4} {e : Event} (h : tokenGate s a ep = .error e) :
    (∀ d bytes, sieOut a ep d bytes s = s.emit e) ∧ (∀ acked, sieIn acked a ep s = s.emit e)
      ∧ (ep = 0 → ∀ bytes, sieSetup a bytes s = s.emit e) := by
  refine ⟨fun d bytes => ?_, fun acked => ?_, fun hep bytes => ?_⟩
  · rw [sieOut, h]
  · rw [sieIn, h]
  · rw [sieSetup, ← hep, h]

/-- Settles O47: an ignored token and one that meets a latched transaction stop at the gate. -/
theorem tokensWaitForTheirTurn : Obligations.TokensWaitForTheirTurn := by
  intro s a ep d bytes hlen ignored answer hwait
  have hgate : tokenGate s a ep = .error answer := by
    by_cases hig : ignored
    · exact (tokenGate_of_ignored hig).trans (congrArg _ (if_pos hig).symm)
    · exact (tokenGate_of_latched hig (hwait.resolve_left hig)).trans (congrArg _ (if_neg hig).symm)
  obtain ⟨hout, hin, hsetup⟩ := moves_of_gate_error hgate
  exact ⟨(lineStep_out hlen a ep d s).trans (congrArg _ (hout d bytes)), congrArg _ (hin true), congrArg _ (hin false),
    fun hep => (lineStep_setup hlen a s).trans (congrArg _ (hsetup hep bytes))⟩

/-! ## What a completion leaves -/

@[simp] theorem BdFile.set_set (f : BdFile) (i : BdIndex) (b c : Bd) : (f.set i b).set i c = f.set i c := by
  fin_cases i <;> rfl

/-- Setting a flag keeps the other bits of `UIR`. -/
theorem State.setUir_eq (s : State) {k : Nat} {m : Byte} (h : bitMask k = m) :
    s.setUir k = { s with uir := s.uir ||| m } := by
  subst h
  rfl

theorem sieStall_eq (s : State) : sieStall s = { s with uir := s.uir ||| 0x20, event := some .stall } :=
  congrArg (fun u : State => u.emit .stall) (s.setUir_eq (k := uirSTALL) (by decide))

/-- A completion writes its descriptor, `USTAT` and `UIR.TRN` (R41, R101). -/
theorem State.complete_eq (s : State) (i : BdIndex) (u : Byte) :
    s.complete i u =
      { s with bds := s.bds.set i { s.bd i with own := .sw }, ustat := u, uir := s.uir ||| 0x08 } :=
  State.setUir_eq { s with bds := s.bds.set i { s.bd i with own := .sw }, ustat := u } (k := uirTRN) (by decide)

/-- A packet that is taken fills its buffer, and its descriptor says how far (R342). -/
theorem State.receive_complete_eq (s : State) (i : BdIndex) (bytes : List Byte) (u : Byte) :
    (s.receive i bytes).complete i u =
      { s with
        mem := s.mem.write (baseOf i) bytes
        bds := s.bds.set i { s.bd i with count := BitVec.ofNat 8 bytes.length, own := .sw }
        ustat := u, uir := s.uir ||| 0x08 } := by
  rw [State.complete_eq, State.receive_bd, if_pos rfl]
  simp [State.receive]

/-! ## SETUP (R340) -/

/-- A SETUP that is taken: its bytes in the EP0 OUT buffer, both EP0 descriptors back with the block (R340). -/
def setupTaken (s : State) (bytes : List Byte) : State :=
  { s with
    mem := s.mem.write 0x00 bytes
    bds := { s.bds with
      ep0Out := { s.bds.ep0Out with count := BitVec.ofNat 8 bytes.length, own := .sw }
      ep0In := { s.bds.ep0In with own := .sw } }
    ustat := 0x40, uir := s.uir ||| 0x08, event := some .ack }

section

variable {s : State} {a : BitVec 7} {e : Fin 3}

theorem sieSetup_of_hw (h : served s a 0) (hown : s.bds.ep0Out.own = .hw) (bytes : List Byte) :
    sieSetup a bytes s = setupTaken s bytes := by
  have hgate : tokenGate s a 0 = .ok 0 := served_iff_gate.1 h
  have hbd : (s.bd 0).own = .hw := hown
  simp only [sieSetup, hgate, hbd, State.complete_eq]
  rfl

theorem sieSetup_of_sw (h : served s a 0) (hown : s.bds.ep0Out.own = .sw) (bytes : List Byte) :
    sieSetup a bytes s = s.emit .nak := by
  have hgate : tokenGate s a 0 = .ok 0 := served_iff_gate.1 h
  have hbd : (s.bd 0).own = .sw := hown
  simp only [sieSetup, hgate, hbd]

/-- In a legal state EP0 OUT waits for a SETUP whenever a token of EP0 is served (I2, R340). -/
theorem ep0Out_armed_of_served (hlegal : Legal s) (h : served s a 0) : s.bds.ep0Out.own = .hw := by
  have ⟨_, _, hen, _⟩ := h
  have hdef : s.atLeastDefault = true := hlegal.enables.1.symm.trans hen
  exact hlegal.ep0Out_armed_of_gate (served_iff_gate.1 h) ((s.atLeastDefault_iff).1 hdef)

end

/-- Settles O48: the SIE owns EP0 OUT and the packet is taken (`sieSetup_of_hw`), or the block does
(`sieSetup_of_sw`). -/
theorem setupMoveTaken : Obligations.SetupMoveTaken := by
  intro s a bytes h hlen
  refine ⟨?_, fun hlegal => ep0Out_armed_of_served hlegal h⟩
  rw [lineStep_setup hlen]
  cases hown : s.bds.ep0Out.own with
  | hw => exact congrArg _ (sieSetup_of_hw h hown bytes)
  | sw => exact congrArg _ (sieSetup_of_sw h hown bytes)

/-! ## OUT and IN (R342 to R347, R352) -/

section

variable {s : State} {a : BitVec 7} {e : Fin 3}

/-- The answer to an OUT token that is served, its tests in the order of the rules. -/
theorem sieOut_of_served (h : served s a e) (d : Bool) (bytes : List Byte) :
    sieOut a (BitVec.ofNat 4 e.val) d bytes s =
      if e ≠ 0 ∧ s.ephalt.getLsbD (bdOf e .outward).val = true then sieStall s
      else if (s.bd (bdOf e .outward)).own = .sw then s.emit .nak
      else if (s.bd (bdOf e .outward)).stall = true then sieStall s
      else if (s.bd (bdOf e .outward)).count.toNat < bytes.length then (s.setUir uirUERR).emit .noAnswer
      else if d ≠ (s.bd (bdOf e .outward)).dts then s.emit .ack
      else ((s.receive (bdOf e .outward) bytes).complete (bdOf e .outward) (ustatOut e)).emit .ack := by
  simp only [sieOut, served_iff_gate.1 h, s.halted_bdOf, decide_eq_true_eq]
  cases (s.bd (bdOf e .outward)).own <;> rfl

/-- How an IN token that is served leaves `s` when it sends nothing (R346, R347). -/
def inRefusal (s : State) (e : Fin 3) : Option State :=
  if e ≠ 0 ∧ s.ephalt.getLsbD (bdOf e .inward).val = true then some (sieStall s)
  else if (s.bd (bdOf e .inward)).own = .sw then some (s.emit .nak)
  else if (s.bd (bdOf e .inward)).stall = true then some (sieStall s)
  else none

/-- The answer to an IN token that is served. -/
theorem sieIn_of_served (h : served s a e) (acked : Bool) :
    sieIn acked a (BitVec.ofNat 4 e.val) s =
      (inRefusal s e).getD
        (if acked then (sieSend (bdOf e .inward) s).complete (bdOf e .inward) (ustatIn e)
        else sieSend (bdOf e .inward) s) := by
  simp only [sieIn, served_iff_gate.1 h, s.halted_bdOf, decide_eq_true_eq, inRefusal]
  split
  · rfl
  · cases (s.bd (bdOf e .inward)).own
    case sw => rfl
    case hw =>
      simp only [reduceCtorEq, if_false]
      split <;> rfl

end

/-- Settles O49: `sieOut_of_served`, its answers written out field by field. -/
theorem outMoveAnswered : Obligations.OutMoveAnswered := by
  intro s a ep d bytes h hlen i
  rw [lineStep_out hlen, sieOut_of_served h, sieStall_eq, s.setUir_eq (k := uirUERR) (m := 0x02) (by decide),
    State.receive_complete_eq]
  rfl

/-- Settles O50: `sieIn_of_served`, its answers written out field by field. -/
theorem inMoveAnswered : Obligations.InMoveAnswered := by
  intro s a ep h i read refusal sent
  have hrefusal : inRefusal s ep = refusal := by
    rw [inRefusal, sieStall_eq]
    rfl
  have hustat : ∀ ep : Fin 3, ustatIn ep = BitVec.ofNat 8 (0x30 + ep.val) := by decide
  have hin (acked : Bool) := congrArg (Host.Outcome.next (φ := Fault) (ρ := Refusal)) (sieIn_of_served h acked)
  rw [hrefusal, State.complete_eq, hustat] at hin
  exact ⟨hin true, hin false⟩

/-! ## FLAG and BUS (R349 to R353) -/

/-- Settles O51: with the module enabled each flag is one bit of `UIR`, without it nothing is set. -/
theorem flagAndBusMoves : Obligations.FlagAndBusMoves := by
  intro s
  refine ⟨fun f => ?_, fun _ _ => rfl⟩
  change Host.Outcome.next (sieFlag f s) = _
  by_cases hmoden : s.moden = true
  · have hset {m : Byte} (hm : bitMask (SieFlag.bit f) = m) :
        sieFlag f s = { s with uir := s.uir ||| m, event := some .noAnswer } := by
      rw [sieFlag, if_pos hmoden, s.setUir_eq hm]
      rfl
    rw [if_pos hmoden]
    cases f <;> exact congrArg _ (hset (by decide))
  · rw [sieFlag, if_neg hmoden, if_neg hmoden]
    rfl

end Sys2Proof.Machine
end

section
/-! PROOFS. What the SIE may write (45_sie_environment.md section 4), and that it takes a SETUP after every pump step.
`SieMoved` says once what its moves can leave; each clause of the frame is read off it. -/

namespace Sys2Proof.Machine

open Sys2Proof.Safety

/-! ## What a move of the SIE can leave -/

/-- `SieMoved s l t`: the token or flag move `l` of the SIE can take `s` to `t`. -/
inductive SieMoved (s : State) : Line → State → Prop
  /-- An answer alone, to any of the moves (R341, R343, R346). -/
  | answered (l : Line) (e : Event) : SieMoved s l (s.emit e)
  /-- A flag, with its answer (R344, R347, R349 to R352). -/
  | flagged (l : Line) (k : Nat) (e : Event) (hmoden : s.moden = true) : SieMoved s l ((s.setUir k).emit e)
  /-- A packet whose ACK is lost (R345). -/
  | sent (l : Line) (i : BdIndex) (hmoden : s.moden = true) : SieMoved s l (sieSend i s)
  /-- A packet whose ACK arrives (R345). -/
  | sentAndAcked (l : Line) {a : BitVec 7} {e : Fin 3} (hserved : served s a e)
      (hown : (s.bd (bdOf e .inward)).own = .hw) :
      SieMoved s l ((sieSend (bdOf e .inward) s).complete (bdOf e .inward) (ustatIn e))
  /-- A SETUP that is taken (R340). -/
  | setup {a : BitVec 7} {bytes : List Byte} (hlen : bytes.length ≤ 64) (hserved : served s a 0)
      (hown : s.bds.ep0Out.own = .hw) : SieMoved s (.setup a bytes) (setupTaken s bytes)
  /-- An OUT that is taken (R342). -/
  | out {a : BitVec 7} {e : Fin 3} {d : Bool} {bytes : List Byte} (hlen : bytes.length ≤ 64)
      (hserved : served s a e) (hown : (s.bd (bdOf e .outward)).own = .hw) :
      SieMoved s (.out a (BitVec.ofNat 4 e.val) d bytes)
        (((s.receive (bdOf e .outward) bytes).complete (bdOf e .outward) (ustatOut e)).emit .ack)

/-- A token stops at the gate with an answer, or names an endpoint by its number and is served there (R341). -/
theorem tokenGate_cases (s : State) (a : BitVec 7) (ep : BitVec 4) :
    (∃ e, tokenGate s a ep = .error e) ∨ ∃ e : Fin 3, ep = BitVec.ofNat 4 e.val ∧ served s a e := by
  cases h : tokenGate s a ep with
  | error e => exact .inl ⟨e, rfl⟩
  | ok e => exact .inr ⟨e, served_of_gate h⟩

theorem Owner.eq_hw {o : Owner} (h : o ≠ .sw) : o = .hw := by
  cases o with
  | sw => exact absurd rfl h
  | hw => rfl

section

variable {s t : State} {a : BitVec 7} {e : Fin 3}

theorem inRefusal_eq_some (h : inRefusal s e = some t) : t = sieStall s ∨ t = s.emit .nak := by
  unfold inRefusal at h
  split_ifs at h <;> cases h
  · exact .inl rfl
  · exact .inr rfl
  · exact .inl rfl

theorem own_of_inRefusal_eq_none (h : inRefusal s e = none) : (s.bd (bdOf e .inward)).own = .hw := by
  unfold inRefusal at h
  split_ifs at h with hhalt hsw
  exact Owner.eq_hw hsw

theorem sieSetup_moved {bytes : List Byte} (hlen : bytes.length ≤ 64) :
    SieMoved s (.setup a bytes) (sieSetup a bytes s) := by
  cases hgate : tokenGate s a 0 with
  | error e =>
    obtain ⟨-, -, hsetup⟩ := moves_of_gate_error hgate
    rw [hsetup rfl]
    exact .answered _ e
  | ok e =>
    have hserved : served s a 0 := by
      obtain ⟨hep, hserved⟩ := served_of_gate hgate
      have hzero : ∀ e : Fin 3, 0 = BitVec.ofNat 4 e.val → e = 0 := by decide
      rwa [hzero e hep] at hserved
    cases hown : s.bds.ep0Out.own with
    | sw =>
      rw [sieSetup_of_sw hserved hown]
      exact .answered _ _
    | hw =>
      rw [sieSetup_of_hw hserved hown]
      exact .setup hlen hserved hown

theorem sieOut_moved {ep : BitVec 4} {d : Bool} {bytes : List Byte} (hlen : bytes.length ≤ 64) :
    SieMoved s (.out a ep d bytes) (sieOut a ep d bytes s) := by
  rcases tokenGate_cases s a ep with ⟨e, hgate⟩ | ⟨e, rfl, hserved⟩
  · obtain ⟨hout, -, -⟩ := moves_of_gate_error hgate
    rw [hout]
    exact .answered _ e
  · have hmoden : s.moden = true := hserved.1
    rw [sieOut_of_served hserved]
    split_ifs with hhalt hsw hstall hlong htoggle
    · exact .flagged _ uirSTALL .stall hmoden
    · exact .answered _ _
    · exact .flagged _ uirSTALL .stall hmoden
    · exact .flagged _ _ _ hmoden
    · exact .answered _ _
    · exact .out hlen hserved (Owner.eq_hw hsw)

theorem sieIn_moved (l : Line) (acked : Bool) (ep : BitVec 4) : SieMoved s l (sieIn acked a ep s) := by
  rcases tokenGate_cases s a ep with ⟨e, hgate⟩ | ⟨e, rfl, hserved⟩
  · obtain ⟨-, hin, -⟩ := moves_of_gate_error hgate
    rw [hin]
    exact .answered _ e
  · have hmoden : s.moden = true := hserved.1
    rw [sieIn_of_served hserved]
    cases href : inRefusal s e with
    | some t =>
      rcases inRefusal_eq_some href with rfl | rfl
      · exact .flagged _ uirSTALL .stall hmoden
      · exact .answered _ .nak
    | none =>
      cases acked with
      | true => exact .sentAndAcked l hserved (own_of_inRefusal_eq_none href)
      | false => exact .sent l _ hmoden

theorem sieFlag_moved (l : Line) (f : SieFlag) : SieMoved s l (sieFlag f s) := by
  unfold sieFlag
  split
  · rename_i hmoden
    exact .flagged _ _ _ hmoden
  · exact .answered _ _

end

/-- Every token and flag move. -/
theorem lineStep_moved {l : Line} {s t : State} (hpump : l ≠ .pump) (hcmd : ∀ c data, l ≠ .cmd c data)
    (hbus : ∀ v z, l ≠ .bus v z) (h : lineStep l s = .next t) : SieMoved s l t := by
  unfold lineStep at h
  split at h
  · rename_i hwf
    cases l with
    | pump => exact absurd rfl hpump
    | cmd c data => exact absurd rfl (hcmd c data)
    | bus v z => exact absurd rfl (hbus v z)
    | setup a bytes =>
      cases h
      exact sieSetup_moved (of_decide_eq_true hwf)
    | out a ep d bytes =>
      cases h
      exact sieOut_moved (of_decide_eq_true hwf)
    | inToken a ep =>
      cases h
      exact sieIn_moved ..
    | inLost a ep =>
      cases h
      exact sieIn_moved ..
    | flag f =>
      cases h
      exact sieFlag_moved ..
  · cases h

/-! ## Its frame (R354, R357) -/

/-- `PacketFor l i bytes`: the token `l` carries `bytes` for descriptor `i`. -/
inductive PacketFor : Line → BdIndex → List Byte → Prop
  | setup (a : BitVec 7) (bytes : List Byte) : PacketFor (.setup a bytes) 0 bytes
  | out (a : BitVec 7) (e : Fin 3) (d : Bool) (bytes : List Byte) :
    PacketFor (.out a (BitVec.ofNat 4 e.val) d bytes) (bdOf e .outward) bytes

theorem bdOf_val_div_two (e : Fin 3) (d : Dir) : (bdOf e d).val / 2 = e.val := by
  cases d <;> simp only [bdOf] <;> omega

/-- Setting bits of a word clears none. -/
theorem and_not_or_self {w : Nat} (x m : BitVec w) : x &&& ~~~(x ||| m) = 0 := by
  rw [BitVec.not_or, ← BitVec.and_assoc, BitVec.and_not_self]
  exact BitVec.zero_and

namespace SieMoved

variable {l : Line} {s t : State}

theorem fields (h : SieMoved s l t) :
    t = { s with bds := t.bds, uir := t.uir, ustat := t.ustat, mem := t.mem, draws := t.draws, event := t.event } := by
  cases h <;> rfl

theorem uir_raised (h : SieMoved s l t) : ∃ m, t.uir = s.uir ||| m := by
  cases h with
  | answered | sent => exact ⟨0, BitVec.or_zero.symm⟩
  | flagged | sentAndAcked | out | setup => exact ⟨_, rfl⟩

theorem of_disabled (h : SieMoved s l t) (hoff : s.moden = false) : t = { s with event := t.event } := by
  have hcontra {p : Prop} (hmoden : s.moden = true) : p := absurd (hoff.symm.trans hmoden) Bool.false_ne_true
  cases h with
  | answered => rfl
  | flagged _ _ _ hmoden | sent _ _ hmoden => exact hcontra hmoden
  | sentAndAcked _ hserved | setup _ hserved | out _ hserved =>
    obtain ⟨hmoden, -⟩ := hserved
    exact hcontra hmoden

/-- A token of 64 bytes or less stores them in the buffer they are for, and no other move stores anything. -/
theorem mem_written (h : SieMoved s l t) :
    t.mem = s.mem ∨ ∃ i bytes, PacketFor l i bytes ∧ bytes.length ≤ 64 ∧ t.mem = s.mem.write (baseOf i) bytes := by
  cases h with
  | answered | flagged | sent | sentAndAcked => exact .inl rfl
  | setup hlen => exact .inr ⟨0, _, .setup .., hlen, rfl⟩
  | out hlen => exact .inr ⟨_, _, .out .., hlen, rfl⟩

theorem byteAt_outside (h : SieMoved s l t) {c : Nat}
    (hc : ∀ i bytes, PacketFor l i bytes → c < (baseOf i).toNat ∨ (baseOf i).toNat + bytes.length ≤ c) :
    t.byteAt c = s.byteAt c := by
  have hbase : ∀ i, (baseOf i).toNat ≤ 0x98 := by decide
  unfold State.byteAt
  rcases h.mem_written with hmem | ⟨i, bytes, hpacket, hlen, hmem⟩ <;> rw [hmem]
  have hfit : (baseOf i).toNat + bytes.length ≤ 256 := by
    have hi := hbase i
    omega
  exact Memory.lookup_write_outside _ _ _ _ hfit (hc i bytes hpacket)

/-- A descriptor is kept, or its endpoint is enabled and the SIE gives it back; a count that changes is that of a packet
for this descriptor, which completes the transaction (R357). -/
theorem bd_handed_back (h : SieMoved s l t) (i : BdIndex) :
    t.bd i = s.bd i
      ∨ (s.bd i).own = .hw ∧ s.epen.getLsbD (i.val / 2) = true
        ∧ ∃ n, t.bd i = { s.bd i with own := .sw, count := n }
          ∧ (n ≠ (s.bd i).count →
            s.uir.getLsbD 3 = false ∧ t.uir.getLsbD 3 = true ∧ t.event = some .ack
            ∧ ∃ bytes, PacketFor l i bytes ∧ n = BitVec.ofNat 8 bytes.length) := by
  have hlatched (x : Byte) : (x ||| 0x08).getLsbD 3 = true := by simp
  cases h with
  | answered | flagged | sent => exact .inl rfl
  | @sentAndAcked _ a e hserved hown =>
    obtain ⟨-, -, hen, -⟩ := hserved
    by_cases hi : i = bdOf e .inward
    · subst hi
      refine .inr ⟨hown, by rwa [bdOf_val_div_two], _, ?_, fun hne => absurd rfl hne⟩
      rw [State.complete_bd, if_pos rfl]
      rfl
    · left
      rw [State.complete_bd, if_neg hi]
      rfl
  | @setup a bytes _ hserved hown =>
    obtain ⟨-, -, hen, hfree⟩ := hserved
    match i with
    | 0 => exact .inr ⟨hown, hen, _, rfl, fun _ => ⟨hfree, hlatched _, rfl, bytes, .setup .., rfl⟩⟩
    | 1 =>
      cases hin : (s.bd 1).own with
      | hw => exact .inr ⟨rfl, hen, _, rfl, fun hne => absurd rfl hne⟩
      | sw =>
        left
        change { s.bd 1 with own := Owner.sw } = s.bd 1
        rw [← hin]
    | 2 | 3 | 4 | 5 => exact .inl rfl
  | @out a e d bytes _ hserved hown =>
    obtain ⟨-, -, hen, hfree⟩ := hserved
    by_cases hi : i = bdOf e .outward
    · subst hi
      refine .inr ⟨hown, by rwa [bdOf_val_div_two], BitVec.ofNat 8 bytes.length, ?_,
        fun _ => ⟨hfree, ?_, rfl, bytes, .out .., rfl⟩⟩
      · rw [State.receive_complete_eq]
        exact BdFile.get_set_same ..
      · rw [State.receive_complete_eq]
        exact hlatched _
    · left
      rw [State.receive_complete_eq]
      exact BdFile.get_set_other _ _ hi

end SieMoved

/-- Settles O52: clause by clause from `SieMoved`. -/
theorem sieKeepsToItsSide : Obligations.SieKeepsToItsSide := by
  intro l s t hpump hcmd hbus h
  have hmoved := lineStep_moved hpump hcmd hbus h
  refine ⟨hmoved.fields, fun i => ?bd, ?uir, hmoved.of_disabled, fun hsetup hout => ?mem, ?setup, ?out⟩
  case bd =>
    rcases hmoved.bd_handed_back i with hkept | ⟨hown, hen, n, hback, hcount⟩
    · rw [hkept]
      exact ⟨rfl, rfl, rfl, id, fun _ => rfl, fun hne => absurd rfl hne⟩
    · rw [hback]
      refine ⟨rfl, rfl, rfl, fun _ => hown, fun hother => ?_, fun hne => ?_⟩
      · rw [hown, hen] at hother
        simp at hother
      · obtain ⟨hfree, hlatched, hack, bytes, hpacket, hn⟩ := hcount hne
        refine ⟨hfree, hlatched, hack, ?_⟩
        cases hpacket with
        | setup a => exact .inl ⟨a, bytes, rfl, rfl, hn⟩
        | out a e d => exact .inr ⟨a, d, bytes, e, rfl, rfl, hn⟩
  case uir =>
    obtain ⟨m, hm⟩ := hmoved.uir_raised
    rw [hm]
    exact and_not_or_self s.uir m
  case mem =>
    rcases hmoved.mem_written with hmem | ⟨i, bytes, hpacket, -, -⟩
    · exact hmem
    · cases hpacket with
      | setup a => exact absurd rfl (hsetup a bytes)
      | out a e d => exact absurd rfl (hout a _ d bytes)
  case setup =>
    rintro a bytes rfl c hc
    refine hmoved.byteAt_outside fun i bytes hpacket => ?_
    cases hpacket
    exact .inr hc
  case out =>
    rintro a ep d bytes rfl c hc
    refine hmoved.byteAt_outside fun i bytes hpacket => ?_
    cases hpacket with
    | out a e => exact hc e rfl

/-! ## A SETUP after every pump step -/

/-- With the latch free, a legal state from Default on serves EP0 at its own address (I2, I6). -/
theorem ep0_served {s : State} (h : Legal s) (hdef : 3 ≤ s.devstate) (hfree : s.uirBit uirTRN = false) :
    served s s.addr 0 :=
  have hen : s.enabled 0 = true := h.enables.1.trans ((s.atLeastDefault_iff).2 hdef)
  ⟨h.sound.moden_of_default hdef, rfl, hen, hfree⟩

/-- Settles O57: a pump step keeps the state legal and frees the latch, so the SETUP is served and EP0 OUT waits for
it. -/
theorem setupIsTakenAfterEveryPumpStep : Obligations.SetupIsTakenAfterEveryPumpStep := by
  intro s t h ht hdef bytes hlen
  have hlegal : Legal t := pumpStep_legal h ht
  have hfree : t.uirBit uirTRN = false := (flags_eq_zero_iff t).1 (pumpStepClearsEveryFlag s t ht) uirTRN (by decide)
  have hserved : served t t.addr 0 := ep0_served hlegal hdef hfree
  have htaken := sieSetup_of_hw hserved (ep0Out_armed_of_served hlegal hserved) bytes
  exact ⟨setupTaken t bytes, (lineStep_setup hlen t.addr t).trans (congrArg _ htaken), rfl, rfl, rfl, rfl⟩

end Sys2Proof.Machine
end

section
/-! PROOFS. What a legal state guarantees of its next step (60_exceptions.md section 1, R370, R377): every branch,
command and move ends in a next state, and a bus reset leaves no trace of the transfer before it. -/

namespace Sys2Proof.Machine

/-! ## Lists of branches (R281) -/

/-- A list of branches ends in a next state when each of them does and keeps the property under which they do. -/
theorem runBranches_completes {P : State → Prop} {rows : List (BitVec 16 × BitVec 16 × Instr)}
    (hrows : ∀ row ∈ rows, ∀ s, P s → s.view &&& row.1 = row.2.1 → ∃ t, exec row.2.2 s = .next t ∧ P t)
    {s : State} (hs : P s) : ∃ t, runBranches rows s = .next t := by
  induction rows generalizing s with
  | nil => exact ⟨s, rfl⟩
  | cons row rows ih =>
    have hrest : ∀ {u : State}, P u → ∃ t, runBranches rows u = .next t :=
      ih fun r hr => hrows r (List.mem_cons_of_mem _ hr)
    by_cases htest : s.view &&& row.1 = row.2.1
    · obtain ⟨u, hu, hPu⟩ := hrows row List.mem_cons_self s hs htest
      rw [runBranches_cons_taken htest hu]
      exact hrest hPu
    · rw [runBranches_cons_not_taken htest]
      exact hrest hs

theorem Result.andThen_assoc (r : Result) (k k' : State → Result) :
    (r.andThen k).andThen k' = r.andThen fun s => (k s).andThen k' := by
  cases r <;> rfl

/-- A list of branches run in two parts. -/
theorem runBranches_append (rows rows' : List (BitVec 16 × BitVec 16 × Instr)) (s : State) :
    runBranches (rows ++ rows') s = (runBranches rows s).andThen (runBranches rows') := by
  induction rows generalizing s with
  | nil => rfl
  | cons row rows ih =>
    simp only [List.cons_append, runBranches, Result.andThen_assoc]
    exact congrArg _ (funext ih)

end Sys2Proof.Machine

namespace Sys2Proof.Safety

open Sys2Proof.Machine

/-! ## Branches and the pump step (R281) -/

/-- TRN in every legal state: below Default the transaction is discarded, from Default on its row completes (R292). -/
theorem execTrn_completes_of_latched {s : State} (h : Legal s) (htrn : s.uirBit uirTRN = true) :
    ∃ t, execTrn s = .next t := by
  by_cases hdef : 3 ≤ s.devstate
  · exact execTrn_completes h hdef htrn
  · obtain ⟨-, hbelow, -⟩ := trnRunsTheLatchedRow s h.devLegal
    exact ⟨_, hbelow (BitVec.not_le.1 hdef)⟩

/-- Each branch of R281 from a legal state in which its test holds. -/
theorem branch_completes {row : BitVec 16 × BitVec 16 × Instr} (hrow : row ∈ branchRows) {s : State} (h : Legal s)
    (htest : s.view &&& row.1 = row.2.1) : ∃ t, exec row.2.2 s = .next t := by
  simp only [branchRows, List.mem_cons, List.not_mem_nil, or_false] at hrow
  rcases hrow with rfl | rfl | rfl | rfl | rfl | rfl | rfl | rfl | rfl | rfl
  · exact ⟨_, rfl⟩
  · exact ⟨_, rfl⟩
  · exact ⟨_, rfl⟩
  · exact ⟨_, rfl⟩
  · exact ⟨_, withDevState_ok (State.devOk_of_le h.devLegal) _⟩
  · exact ⟨_, rfl⟩
  · exact ⟨_, rfl⟩
  · exact ⟨_, rfl⟩
  · exact ⟨_, rfl⟩
  · exact execTrn_completes_of_latched h ((test_flag_iff s (k := uirTRN) (by decide)).1 htest)

theorem pumpStep_completes {s : State} (h : Legal s) : ∃ t, pumpStep s = .next t := by
  rw [pumpStep, withDevState_ok (State.devOk_of_le h.devLegal)]
  refine runBranches_completes (P := Legal) (fun row hrow u hu htest => ?_) h
  obtain ⟨t, ht⟩ := branch_completes hrow hu htest
  exact ⟨t, ht, branch_legal hrow hu htest ht⟩

/-! ## Commands (R321 to R326) -/

theorem execBulkWrite_completes {s : State} (hle : s.devstate ≤ 5) (ep : BitVec 4) (data : List Byte) :
    ∃ t, execBulkWrite ep data s = .next t := by
  cases he : bulkEp ep with
  | none => exact ⟨_, execBulkWrite_of_no_ep he data s⟩
  | some e =>
    by_cases hdev : s.devstate = 5
    · cases hown : (s.bd (bdOf e .inward)).own with
      | sw => exact ⟨_, execBulkWrite_of_sw he rfl hdev hown data rfl⟩
      | hw => exact ⟨_, execBulkWrite_of_sie he rfl hle hown data⟩
    · exact ⟨_, execBulkWrite_of_not_configured he hle hdev data⟩

theorem execBulkRead_completes {s : State} (hle : s.devstate ≤ 5) (ep : BitVec 4) (len : Byte) :
    ∃ t, execBulkRead ep len s = .next t := by
  cases he : bulkEp ep with
  | none => exact ⟨_, execBulkRead_of_no_ep he len s⟩
  | some e =>
    by_cases hdev : s.devstate = 5
    · cases hown : (s.bd (bdOf e .outward)).own with
      | sw => exact ⟨_, execBulkRead_of_sw he rfl hdev hown len⟩
      | hw => exact ⟨_, execBulkRead_of_sie he rfl hle hown len⟩
    · exact ⟨_, execBulkRead_of_not_configured he hle hdev len⟩

/-- Every word on the command port is answered: a malformed one is refused, not faulted (R321, R375). -/
theorem commandStep_completes {s : State} (h : Legal s) (c : BitVec 32) (data : List Byte) :
    ∃ t, commandStep c data s = .next t := by
  unfold commandStep
  split
  · rename_i i hdec
    rcases decodeCmd_eq_ok hdec with rfl | rfl | rfl
    · exact execBulkWrite_completes h.devLegal _ data
    · exact execBulkRead_completes h.devLegal _ _
    · exact ⟨_, execStatus_answers h.devLegal h.stageLegal⟩
  · exact ⟨_, rfl⟩

/-! ## The step (R354, R370, R376) -/

theorem lineStep_completes {l : Line} {s : State} (h : Legal s) (hwf : l.wf = true) :
    ∃ t, lineStep l s = .next t := by
  unfold lineStep
  rw [if_pos hwf]
  cases l with
  | pump => exact pumpStep_completes h
  | cmd c data => exact commandStep_completes h c data
  | setup | out | inToken | inLost | flag | bus => exact ⟨_, rfl⟩

/-- A step of a legal state has a next one, unless the environment breaks its duty: then there is no such move, and
still no fault. -/
theorem step_completes_or_notAMove {s : State} (h : Legal s) :
    (∃ t, step s = .next t) ∨ ((∃ l ∈ s.agenda, l.wf = false) ∧ step s = .refused .notAMove) := by
  unfold step takeStep
  rw [h.busQuiet]
  cases hag : s.agenda with
  | nil => exact .inl (pumpStep_completes h)
  | cons l rest =>
    have hrest : Legal { s with bdBus := none, agenda := rest } := { h with busQuiet := rfl }
    cases hwf : l.wf with
    | true => exact .inl (lineStep_completes hrest hwf)
    | false =>
      refine .inr ⟨⟨l, List.mem_cons_self, hwf⟩, ?_⟩
      simp [lineStep, hwf]

/-- Settles O55: both clauses from the two ends of a step of a legal state, `step_completes_or_notAMove`. -/
theorem legalStatesNeverStop : Obligations.LegalStatesNeverStop := by
  intro s h
  rcases step_completes_or_notAMove h with ⟨t, ht⟩ | ⟨⟨l, hl, hbad⟩, hrefused⟩
  · exact ⟨fun f => by simp [ht], fun _ => ⟨t, ht⟩⟩
  · exact ⟨fun f => by simp [hrefused], fun hwf => absurd (hwf l hl) (by simp [hbad])⟩

/-! ## Recovery by bus reset (R377, R395) -/

/-- A bus reset waits for the pump, with nothing that would detach the device before it. -/
structure ResetWaits (s : State) : Prop where
  legal : Legal s
  moden : s.moden = true
  vbus : s.vbus = true
  flag : s.uirBit uirURST = true

/-- A bus reset was handled: nothing but flags, `UIR.TRN` not among them, and `SUSP` moved since. -/
def Recovered (s : State) : Prop :=
  s.uirBit uirTRN = false ∧ ∃ u uir susp, s = { busResetHandler u with uir := uir, susp := susp }

/-- The branches before URST leave the bus reset waiting: with the module enabled and bus power, DETACH and ATTACH are
not among them (R281). -/
theorem ResetWaits.branch {row : BitVec 16 × BitVec 16 × Instr} (hrow : row ∈ branchRows.take 4) {s t : State}
    (h : ResetWaits s) (htest : s.view &&& row.1 = row.2.1) (ht : exec row.2.2 s = .next t) : ResetWaits t := by
  have hlegal : Legal t := branch_legal (List.mem_of_mem_take hrow) h.legal htest ht
  simp only [branchRows, List.take, List.mem_cons, List.not_mem_nil, or_false] at hrow
  rcases hrow with rfl | rfl | rfl | rfl
  · have hnoBus := ((test_detach_iff s).1 htest).2
    simp [h.vbus] at hnoBus
  · have hoff := ((test_attach_iff s).1 htest).2.1
    simp [h.moden] at hoff
  · cases ht
    exact ⟨hlegal, h.moden, h.vbus, h.flag⟩
  · cases ht
    refine ⟨hlegal, h.moden, h.vbus, ?_⟩
    rw [uirBit_clearUir_other _ (by decide)]
    exact h.flag

/-- URST, taken in a device that is not Detached, as (I6) says of an enabled module (R286). -/
theorem ResetWaits.urst {s t : State} (h : ResetWaits s) (ht : exec .urst s = .next t) : Recovered t := by
  rcases execUrst_eq_next ht with ⟨hdet, -⟩ | ⟨-, rfl⟩
  · have hoff := h.legal.modenFits
    simp [h.moden, hdet] at hoff
  · refine ⟨?_, s, _, (busResetHandler s).susp, rfl⟩
    rw [uirBit_clearUir_other _ (by decide)]
    exact uirBit_clearUir_same { reinitialise s with devstate := devDefault } uirTRN

theorem Recovered.clearUir {s : State} (h : Recovered s) {k : Nat} (hk : uirTRN ≠ k) : Recovered (s.clearUir k) := by
  obtain ⟨htrn, u, uir, susp, rfl⟩ := h
  exact ⟨by rwa [uirBit_clearUir_other _ hk], u, _, susp, rfl⟩

/-- The branches after URST leave the bus reset handled: TRN is not among them, its flag was cleared (R281, R391). -/
theorem Recovered.branch {row : BitVec 16 × BitVec 16 × Instr} (hrow : row ∈ branchRows.drop 5) {s t : State}
    (h : Recovered s) (htest : s.view &&& row.1 = row.2.1) (ht : exec row.2.2 s = .next t) : Recovered t := by
  simp only [branchRows, List.drop, List.mem_cons, List.not_mem_nil, or_false] at hrow
  rcases hrow with rfl | rfl | rfl | rfl | rfl
  · cases ht
    obtain ⟨htrn, u, uir, susp, rfl⟩ := h
    have hasleep : Recovered { busResetHandler u with uir := uir, susp := true } := ⟨htrn, u, uir, true, rfl⟩
    exact hasleep.clearUir (by decide)
  · cases ht
    exact h.clearUir (by decide)
  · cases ht
    exact h.clearUir (by decide)
  · cases ht
    exact h.clearUir (by decide)
  · obtain ⟨htrn, -⟩ := h
    have hset := (test_flag_iff s (k := uirTRN) (by decide)).1 htest
    simp [htrn] at hset

/-- One pump step handles the bus reset that waits. -/
theorem ResetWaits.recovers {s : State} (h : ResetWaits s) : ∃ t, pumpStep s = .next t ∧ Recovered t := by
  obtain ⟨t, ht⟩ := pumpStep_completes h.legal
  refine ⟨t, ht, ?_⟩
  have hsplit : branchRows = branchRows.take 4 ++ (0x0001, 0x0001, .urst) :: branchRows.drop 5 := rfl
  rw [pumpStep, withDevState_eq_next, hsplit, runBranches_append, Result.andThen_eq_next] at ht
  obtain ⟨-, s1, h1, ht⟩ := ht
  have hwaits : ResetWaits s1 := runBranches_invariant (fun _ hrow _ _ => ResetWaits.branch hrow) h h1
  have htest := (test_flag_iff s1 (k := uirURST) (by decide)).2 hwaits.flag
  obtain ⟨s2, h2⟩ := branch_completes (row := (0x0001, 0x0001, .urst)) (by decide) hwaits.legal htest
  rw [runBranches_cons_taken htest h2] at ht
  exact runBranches_invariant (fun _ hrow _ _ => Recovered.branch hrow) (hwaits.urst h2) ht

/-- Settles O58: the flag makes a bus reset wait, `ResetWaits.recovers` handles it, and `busResetHandler_eq` says what
it leaves. -/
theorem busResetRecovers : Obligations.BusResetRecovers := by
  intro s h hmoden hvbus
  have hflag : (s.setUir uirURST).uirBit uirURST = true := uirBit_setUir_same s (by decide)
  have hwaits : ResetWaits (s.setUir uirURST) := ⟨h.setUir (by decide), hmoden, hvbus, hflag⟩
  obtain ⟨t, ht, -, u, uir, susp, rfl⟩ := hwaits.recovers
  refine ⟨_, ht, ?_⟩
  rw [busResetHandler_eq]
  refine ⟨rfl, rfl, rfl, rfl, rfl, rfl, rfl, rfl, rfl, rfl, rfl, rfl, fun i hi => ?_⟩
  match i with
  | 0 => exact absurd rfl hi
  | 1 | 2 | 3 | 4 | 5 => exact ⟨rfl, rfl, rfl⟩

end Sys2Proof.Safety
end

section
/-! PROOFS. Loss of bus power (70_reset_and_hazards.md, R392): the detach handler re-initialises, and the branches behind
it find nothing left to do. -/

namespace Sys2Proof.Machine

open Sys2Proof.Safety

/-- The detach handler, field by field. -/
theorem detachHandler_eq (s : State) :
    detachHandler s = { cleared s with devstate := 0, moden := false, uir := 0 } := rfl

/-- Without bus power and with no flag set, the branches behind DETACH change nothing: ATTACH and POWERED test for bus
power (R282, R283). -/
theorem runBranches_behind_detach {s : State} (hvbus : s.vbus = false) (hflags : s.uir &&& 0x7F = 0) :
    runBranches (branchRows.drop 1) s = .next s := by
  have hnoBus : s.vbus ≠ true := Bool.eq_false_iff.1 hvbus
  have hattach := mt (test_attach_iff s).1 fun htaken => hnoBus htaken.2.2
  have hpowered := mt (test_powered_iff s).1 fun htaken => hnoBus htaken.2.2
  calc runBranches (branchRows.drop 1) s
    _ = runBranches (branchRows.drop 2) s := runBranches_cons_not_taken hattach
    _ = runBranches (branchRows.drop 3) s := runBranches_cons_not_taken hpowered
    _ = .next s := runBranches_of_no_flags hflags

/-- Settles O30: the handler by `detachHandler_eq`; a pump step takes DETACH first, which leaves no flag and no bus power
to the branches behind it (`runBranches_behind_detach`). -/
theorem detachReinitialises : Obligations.DetachReinitialises := by
  intro s
  have hexec : exec .detach s = .next (detachHandler s) := rfl
  rw [← detachHandler_eq]
  refine ⟨hexec, fun hdev hvbus hmoden => ?_⟩
  have hdetach := (test_detach_iff s).2 ⟨hmoden, hvbus⟩
  rw [pumpStep, withDevState_ok (State.devOk_of_le hdev)]
  calc runBranches branchRows s
    _ = runBranches (branchRows.drop 1) (detachHandler s) := runBranches_cons_taken hdetach hexec
    _ = .next (detachHandler s) := runBranches_behind_detach hvbus BitVec.zero_and

end Sys2Proof.Machine
end

section
/-! PROOFS. What a step runs: the words of the BD-operation bus that are reserved and those that decode
(40_bd_handshake.md section 4, R169), the decoded word of whichever agent is next, and the request of a Setup packet
(41_control_engine.md section 2, R191). -/

namespace Sys2Proof

/-! ## The reserved bus words (R136, R169) -/

/-- `op = 00`, `bd >= 6` or a nonzero must-be-0 field (R169). -/
def reservedBusWord (w : BitVec 16) : Prop :=
  w.extractLsb' 0 2 = 0#2 ∨ 6 ≤ (w.extractLsb' 2 3).toNat ∨ w.extractLsb' 6 2 ≠ 0#2
    ∨ (w.extractLsb' 0 2 ≠ 1#2 ∧ w.getLsbD 5 = true) ∨ (w.extractLsb' 0 2 = 3#2 ∧ w.extractLsb' 8 8 ≠ 0#8)

theorem bdopWord_index_lt (len : Byte) (t : Bool) (bd : BdIndex) (op : BitVec 2) :
    ((bdopWord len t bd op).extractLsb' 2 3).toNat < 6 := by
  rw [bdopIndex_eq_some.1 (bdopIndex_bdopWord len t bd op), BitVec.toNat_ofNat]
  omega

theorem bdopWord_gap (len : Byte) (t : Bool) (bd : BdIndex) (op : BitVec 2) :
    (bdopWord len t bd op).extractLsb' 6 2 = 0#2 := by
  rw [bdopWord, BitVec.extractLsb'_append_eq_of_le (by decide), BitVec.extractLsb'_append_eq_of_le (by decide),
    BitVec.extractLsb'_append_eq_of_le (by decide)]
  exact BitVec.extractLsb'_append_eq_right

/-- Of the words written with the fields of R116, the reserved ones have no operation or fill a field that theirs must
leave 0. -/
theorem reservedBusWord_bdopWord_iff {len : Byte} {t : Bool} {bd : BdIndex} {op : BitVec 2} :
    reservedBusWord (bdopWord len t bd op) ↔ op = 0#2 ∨ (op ≠ 1#2 ∧ t = true) ∨ (op = 3#2 ∧ len ≠ 0#8) := by
  have hbd : ¬ 6 ≤ ((bdopWord len t bd op).extractLsb' 2 3).toNat := Nat.not_le.2 (bdopWord_index_lt ..)
  have hlen : (bdopWord len t bd op).extractLsb' 8 8 = len := bdopLen_bdopWord ..
  simp only [reservedBusWord, bdopWord_op, bdopWord_gap, bdopWord_toggle, hbd, hlen, ne_eq, not_true_eq_false,
    false_or]

theorem not_reservedBusWord_of_decodeBdop {w : BitVec 16} {i : Instr} (h : decodeBdop w = .ok i) :
    ¬ reservedBusWord w := by
  have henc := encode_of_decodeBdop h
  cases i with
  | arm _ _ _ | drain _ _ | reclaim _ =>
    cases henc
    rw [reservedBusWord_bdopWord_iff]
    simp
  | _ => cases henc

theorem decodeBdop_of_not_reserved {w : BitVec 16} (h : ¬ reservedBusWord w) : ∃ i, decodeBdop w = .ok i := by
  obtain ⟨-, hbd, hgap, -⟩ : _ ∧ _ ∧ _ ∧ _ := by simpa only [reservedBusWord, not_or] using h
  have hindex : bdopIndex w = some ⟨(w.extractLsb' 2 3).toNat, Nat.not_le.1 hbd⟩ := dif_pos (Nat.not_le.1 hbd)
  have hword := bdopWord_of_fields hindex rfl (extractLsb'_one_eq_ofBool w 5) (not_not.1 hgap)
  rw [← hword, reservedBusWord_bdopWord_iff] at h
  have hops : ∀ op : BitVec 2, op = 0#2 ∨ op = 1#2 ∨ op = 2#2 ∨ op = 3#2 := by decide
  rcases hops (w.extractLsb' 0 2) with hop | hop | hop | hop <;> rw [hop] at hword h
  · exact absurd (.inl rfl) h
  · exact ⟨_, hword ▸ decodeBdop_arm ..⟩
  · have ht : w.getLsbD 5 = false := by simpa using h
    rw [ht] at hword
    exact ⟨_, hword ▸ decodeBdop_drain ..⟩
  · obtain ⟨ht, hlen⟩ : w.getLsbD 5 = false ∧ bdopLen w = 0#8 := by simpa using h
    rw [ht, hlen] at hword
    exact ⟨_, hword ▸ decodeBdop_reclaim _⟩

end Sys2Proof

namespace Sys2Proof.Machine

/-! ## The step (R99, R280, R387) -/

section

variable {s : State}

theorem step_of_bus {w : BitVec 16} (h : s.bdBus = some w) : step s = busStep w { s with bdBus := none } := by
  rw [step, takeStep, h]

theorem step_of_line {l : Line} {rest : List Line} (hbus : s.bdBus = none) (h : s.agenda = l :: rest) :
    step s = lineStep l { s with agenda := rest } := by
  rw [step, takeStep, hbus, h]

theorem step_of_idle (hbus : s.bdBus = none) (h : s.agenda = []) : step s = pumpStep s := by
  rw [step, takeStep, hbus, h]

theorem busStep_of_ok {w : BitVec 16} {i : Instr} (h : decodeBdop w = .ok i) : busStep w s = exec i s := by
  rw [busStep, h]

theorem busStep_of_error {w : BitVec 16} {e : DecodeError} (h : decodeBdop w = .error e) :
    busStep w s = .fault .badBdop := by
  rw [busStep, h]

theorem lineStep_cmd_of_ok {c : BitVec 32} {data : List Byte} {i : Instr} (h : decodeCmd c data = .ok i) :
    lineStep (.cmd c data) s = exec i s := by
  change commandStep c data s = exec i s
  rw [commandStep, h]

end

/-- Settles O6: the words that decode are those that are not reserved. -/
theorem reservedBusWordsFault : Obligations.ReservedBusWordsFault := by
  intro w s
  split
  case isTrue hres =>
    refine (step_of_bus rfl).trans ?_
    cases hdec : decodeBdop w with
    | ok i => exact absurd hres (not_reservedBusWord_of_decodeBdop hdec)
    | error e => exact busStep_of_error hdec
  case isFalse hres => exact decodeBdop_of_not_reserved hres

/-- Settles O7: the three places `step` takes its word from, and what a bus word and a command decode to. -/
theorem stepRunsTheDecodedWord : Obligations.StepRunsTheDecodedWord :=
  ⟨fun _ _ _ hbus hdec => (step_of_bus hbus).trans (busStep_of_ok hdec),
    fun _ _ _ _ _ hbus hline hdec => (step_of_line hbus hline).trans (lineStep_cmd_of_ok hdec),
    fun _ _ _ => step_of_line, fun _ => rfl, fun _ => step_of_idle⟩

/-! ## The Setup handler (R191, R208, R209) -/

theorem dispatchRequest_of_ok {packet : BitVec 64} {i : Instr} (h : decodeSetup packet = .ok i) (d : DevRec) :
    dispatchRequest packet d = requestVerdict i d := by
  rw [dispatchRequest, h]

/-- Settles O10: the handler dispatches the verdict of the decoded request, and the request itself goes on from that
verdict in the same way (`exec_request`). -/
theorem setupRunsTheDecodedRequest : Obligations.SetupRunsTheDecodedRequest := by
  intro s i hcount hdec
  refine (execTrnEp0Setup_of_count hcount).trans ?_
  rw [dispatchRequest_of_ok hdec]
  exact (exec_request (encode_of_decodeSetup hdec) _).symm

end Sys2Proof.Machine
end

section
/-! PROOFS. The model faults of the values no rule writes (60_exceptions.md section 1, R376): a reserved device state
and a reserved stage stop each of their readers, and a chunk past its table stops the transaction that sends it. -/

namespace Sys2Proof.Machine

open Sys2Proof.Safety

section

variable {s : State}

/-! ## The reserved device states (R54) -/

theorem withDevState_of_reserved (h : 6 ≤ s.devstate) (r : Result) : withDevState s r = .fault .badDevState := by
  have hreserved : ¬ s.devOk = true := by
    rw [State.devOk_iff]
    exact Nat.not_le.2 (BitVec.le_def.1 h)
  exact if_neg hreserved

theorem execBulkWrite_of_reserved (h : 6 ≤ s.devstate) {ep : Fin 3} (hep : ep ≠ 0) (data : List Byte) :
    execBulkWrite (BitVec.ofNat 4 ep.val) data s = .fault .badDevState := by
  rw [execBulkWrite, bulkEp_ofNat hep]
  exact withDevState_of_reserved h _

theorem execBulkRead_of_reserved (h : 6 ≤ s.devstate) {ep : Fin 3} (hep : ep ≠ 0) (len : Byte) :
    execBulkRead (BitVec.ofNat 4 ep.val) len s = .fault .badDevState := by
  rw [execBulkRead, bulkEp_ofNat hep]
  exact withDevState_of_reserved h _

theorem exec_request_of_reserved (h : 6 ≤ s.devstate) {i : Instr} {packet : BitVec 64}
    (henc : encode i = .setup packet) : exec i s = .fault .badDevState :=
  (exec_request henc s).trans (withDevState_of_reserved h _)

/-- Neither the latch nor the context reset writes the device state (R191, R192). -/
theorem execTrnEp0Setup_of_reserved (h : 6 ≤ s.devstate) (hcount : s.bds.ep0Out.count = 8) :
    execTrnEp0Setup s = .fault .badDevState :=
  (execTrnEp0Setup_of_count hcount).trans (withDevState_of_reserved (s := contextReset (latchSetup s)) h _)

/-! ## The reserved stage (R47) -/

theorem withStage_of_reserved (h : s.stage = 3) (k : Stage → Result) : withStage s k = .fault .badStage := by
  have hnone : s.stage? = none := by simp [State.stage?, h]
  rw [withStage, hnone]

theorem execStatus_of_reserved_stage (h : s.stage = 3) (hdev : s.devstate ≤ 5) : execStatus s = .fault .badStage :=
  (withDevState_ok (State.devOk_of_le hdev) _).trans (withStage_of_reserved h _)

/-! ## A chunk past its table (R86, R197) -/

theorem dataInChunk_of_short_table
    (h : ∀ b, s.table s.srcT = some b → b.length < s.srcOff.toNat + chunkLen s.remain) :
    dataInChunk s = .fault .romOutOfRange := by
  have hnone : s.romRead s.srcT s.srcOff.toNat (chunkLen s.remain) = none := by
    refine Option.eq_none_iff_forall_ne_some.2 fun _ hread => ?_
    obtain ⟨b, htable, hfits, -⟩ := State.romRead_eq_some.1 hread
    exact Nat.not_le.2 (h b htable) hfits
  simp only [dataInChunk, hnone]

theorem execTrnEp0In_of_short_table (hstage : s.stage = 2) (hrem : s.remain ≠ 0)
    (h : ∀ b, s.table s.srcT = some b → b.length < s.srcOff.toNat + chunkLen s.remain) :
    execTrnEp0In s = .fault .romOutOfRange :=
  ((execTrnEp0In_dataIn hstage).trans (if_pos hrem)).trans (dataInChunk_of_short_table h)

/-! ## From the TRN branch (R291) -/

/-- A fault of the transaction TRN runs is TRN's. -/
theorem execTrn_fault_of_runs {i : Instr} {f : Fault} (hwf : i.wf = true) (hne : .trn ≠ i) (hdev : s.devstate ≤ 5)
    (hruns : runs s .trn i) (hfault : exec i s = .fault f) : exec .trn s = .fault f := by
  obtain ⟨-, hdef, henc⟩ := hruns.resolve_left hne
  obtain ⟨hrow, -, -⟩ := trnRunsTheLatchedRow s hdev
  rw [hrow hdef i (decodeUstat_of_encode hwf henc), hfault, Result.andThen]

end

/-- Settles O42: the readers of the device state by `withDevState_of_reserved`, those of the stage by
`withStage_of_reserved`, the chunk by `dataInChunk_of_short_table`; TRN by `execTrn_fault_of_runs`. -/
theorem reservedValuesFault : Obligations.ReservedValuesFault := by
  intro s
  refine ⟨execStatus_of_reserved_stage, fun hstage => ?transactions, fun hstage hdev hruns => ?trn,
    fun hdev => ?devState, fun hstage hrem hshort => ?chunk⟩
  case transactions => exact ⟨withStage_of_reserved hstage _, withStage_of_reserved hstage _⟩
  case trn =>
    rcases hruns with hruns | hruns
    all_goals exact execTrn_fault_of_runs rfl (by decide) hdev hruns (withStage_of_reserved hstage _)
  case devState =>
    have hreader := withDevState_of_reserved hdev
    exact ⟨hreader _, hreader _, hreader _, hreader _,
      fun _ hep => ⟨execBulkWrite_of_reserved hdev hep, execBulkRead_of_reserved hdev hep⟩,
      fun _ _ => exec_request_of_reserved hdev, execTrnEp0Setup_of_reserved hdev⟩
  case chunk =>
    have hin := execTrnEp0In_of_short_table hstage hrem hshort
    exact ⟨hin, fun hdev hruns => execTrn_fault_of_runs rfl (by decide) hdev hruns hin⟩

end Sys2Proof.Machine
end
